-- ==== Sys2Proof/Word.lean ====
section
/-! DEFINITION. The word types of the part's lines: a link or ring byte, a two-byte and a four-byte field, and the
encoder counter. Everything the spec computes with as a number (speeds, angles, loads, times) is a Nat or an Int. -/

namespace Sys2Proof

/-- A byte of a link frame or of a ring frame (R172, R190). -/
abbrev Byte := BitVec 8

/-- A two-byte payload field (R189). -/
abbrev Half := BitVec 16

/-- A four-byte payload field (R189). -/
abbrev Quad := BitVec 32

/-- A value of the encoder counter; R3 takes its differences modulo 2^32. -/
abbrev Count := BitVec 32

end Sys2Proof
end

