-- ==== Sys2Proof/Syntax.lean ====
section
/-! DEFINITION. The commands of the part: one constructor of Instr per row of spec/opcode_table.json, and the requests of
the catalogue (R176) with the fields that the kind table of chapter 11 gives them. The table gives its rows no operands;
they are read from the rules (log 7). -/

namespace Sys2Proof

/-- The two link ports: port 1 is the control room's, port 2 the platform desk's (chapter 10). -/
inductive Port where
  | p1
  | p2
  deriving DecidableEq, Repr

/-- The three feedback lines of R18. -/
inductive FeedbackLine where
  | driveReady
  | brakeReleased
  | brakeSet
  deriving DecidableEq, Repr

/-- The three anemometer channels of R117: 1 hub top, 2 platform, 3 river wall. -/
inductive Channel where
  | hub
  | platform
  | river
  deriving DecidableEq, Repr

/-- A request of the catalogue (R176), its fields as they stand in the payload (kind table of chapter 11). A field is not
judged here: the owning rule judges it when the request is taken. -/
inductive Request where
  | status
  | cabinRead (cabin : Byte)
  | queueRead (first : Byte)
  | holdList
  | moveRead
  | windRead
  | inputsRead
  | faultRead (bank : Byte)
  | trialRead
  | configGet (table index : Byte)
  | configSet (table index : Byte) (values : List (Byte × Quad))
  | commission
  | decommission
  | restart
  | run (on : Byte)
  | holdSet (reason level : Byte)
  | holdRelease (reason : Byte)
  | groupAdd (id : Half) (size : Byte) (mass : Half) (accessible : Byte)
  | groupWithdraw (id : Half)
  | doorRetry (cabin : Byte)
  | factorClear (group : Byte)
  | moveSubmit (kind operand : Byte)
  | moveCancel (number : Half)
  | moveResume (number : Half)
  | cabinService (cabin direction : Byte)
  | windProfileWrite (profile : Byte) (values : List Half)
  | windProfileSelect (profile : Byte)
  | faultAck (bank : Byte)
  | faultClear (bank : Byte)
  | counterClear (bank : Byte)
  | faultMask (bank code mask : Byte)
  | decelTrialStart
  | clearTrip
  deriving DecidableEq, Repr

/-- The commands, one per row of spec/opcode_table.json. A request row carries the port it comes on and its TAG (R176). -/
inductive Instr where
  | coldReset
  | coldResetEnd
  | controlUpdate
  | indexMark
  | standstill
  | trackingError
  | trackingGraceExpiry
  | brakeReleasedArrival
  | brakeReleaseTimeout
  | brakeSetArrival
  | brakeSetTimeout
  | driveReadyChange (line : FeedbackLine) (present : Bool)
  | standTimerExpiry
  | ringRequestSent
  | ringReplyReceived (reply : List Byte)
  | nodeTimeout
  | windSample
  | channelImplausible (channel : Channel)
  | channelRecovery (channel : Channel)
  | warmUpEnd
  | calmPeriodExpiry
  | inputRawChange (input : Fin 16) (value : Bool)
  | inputChange (input : Fin 16)
  | presenceTimerExpiry (port : Port)
  | linkByteReceived (port : Port) (byte : Byte) (stopBit : Bool)
  | frameTimeout (port : Port)
  | transmitDone (port : Port)
  | requestUnknownKind (port : Port) (tag kind : Byte) (payload : List Byte)
  | status (port : Port) (tag : Byte)
  | cabinRead (port : Port) (tag cabin : Byte)
  | queueRead (port : Port) (tag first : Byte)
  | holdList (port : Port) (tag : Byte)
  | moveRead (port : Port) (tag : Byte)
  | windRead (port : Port) (tag : Byte)
  | inputsRead (port : Port) (tag : Byte)
  | faultRead (port : Port) (tag bank : Byte)
  | trialRead (port : Port) (tag : Byte)
  | configGet (port : Port) (tag table index : Byte)
  | configSetGeometry (port : Port) (tag index : Byte) (values : List (Byte × Quad))
  | configSetZones (port : Port) (tag index : Byte) (values : List (Byte × Quad))
  | configSetSpeeds (port : Port) (tag index : Byte) (values : List (Byte × Quad))
  | configSetRing (port : Port) (tag index : Byte) (values : List (Byte × Quad))
  | configSetBoarding (port : Port) (tag index : Byte) (values : List (Byte × Quad))
  | configSetBalance (port : Port) (tag index : Byte) (values : List (Byte × Quad))
  | configSetWindChannels (port : Port) (tag index : Byte) (values : List (Byte × Quad))
  | configSetInputs (port : Port) (tag index : Byte) (values : List (Byte × Quad))
  | configSetFaultCtl (port : Port) (tag index : Byte) (values : List (Byte × Quad))
  | configSetLink (port : Port) (tag index : Byte) (values : List (Byte × Quad))
  | commission (port : Port) (tag : Byte)
  | decommission (port : Port) (tag : Byte)
  | restart (port : Port) (tag : Byte)
  | runOn (port : Port) (tag : Byte)
  | runOff (port : Port) (tag : Byte)
  | holdSet (port : Port) (tag reason level : Byte)
  | holdRelease (port : Port) (tag reason : Byte)
  | groupAdd (port : Port) (tag : Byte) (id : Half) (size : Byte) (mass : Half) (accessible : Byte)
  | groupWithdraw (port : Port) (tag : Byte) (id : Half)
  | doorRetry (port : Port) (tag cabin : Byte)
  | factorClear (port : Port) (tag group : Byte)
  | moveSubmitStopCabin (port : Port) (tag cabin : Byte)
  | moveSubmitAdvance (port : Port) (tag count : Byte)
  | moveCancel (port : Port) (tag : Byte) (number : Half)
  | moveResume (port : Port) (tag : Byte) (number : Half)
  | cabinServiceIn (port : Port) (tag cabin : Byte)
  | cabinServiceOut (port : Port) (tag cabin : Byte)
  | windProfileWrite (port : Port) (tag profile : Byte) (values : List Half)
  | windProfileSelect (port : Port) (tag profile : Byte)
  | faultAck (port : Port) (tag bank : Byte)
  | faultClear (port : Port) (tag bank : Byte)
  | counterClear (port : Port) (tag bank : Byte)
  | faultMaskSet (port : Port) (tag bank code : Byte)
  | faultMaskClear (port : Port) (tag bank code : Byte)
  | decelTrialStart (port : Port) (tag : Byte)
  | clearTrip (port : Port) (tag : Byte)
  | serviceClockTick
  | encoderCount (counts : Int)
  | anemometerPulse (channel : Channel)
  deriving DecidableEq, Repr

end Sys2Proof
end

