-- ==== Sys2Proof/Machine/Arith.lean ====
section
/-! DEFINITION. The arithmetic the rules name: big-endian fields (R189), the two check codes (R172, R190), ceiling
division and the integer square root (Conventions), and the coefficients of the mounting-angle table (R111). -/

namespace Sys2Proof.Machine

/-! ### Payload fields (R189) -/

/-- A one-byte field. -/
def be1 (n : Nat) : List Byte := [BitVec.ofNat 8 n]

/-- A two-byte field, most significant byte first. -/
def be2 (n : Nat) : List Byte := [BitVec.ofNat 8 (n / 256), BitVec.ofNat 8 n]

/-- A four-byte field, most significant byte first. -/
def be4 (n : Nat) : List Byte :=
  [BitVec.ofNat 8 (n / 16777216), BitVec.ofNat 8 (n / 65536), BitVec.ofNat 8 (n / 256), BitVec.ofNat 8 n]

/-- A signed two-byte field, two's complement. -/
def be2s (i : Int) : List Byte := be2 (BitVec.ofInt 16 i).toNat

/-- A signed four-byte field, two's complement. -/
def be4s (i : Int) : List Byte := be4 (BitVec.ofInt 32 i).toNat

/-- A boolean field: 0 for clear, 1 for set. -/
def beBool (b : Bool) : List Byte := [if b then 1 else 0]

/-- The two-byte field made of two bytes. -/
def half (high low : Byte) : Half := high ++ low

/-- The four-byte field made of four bytes. -/
def quad (b0 b1 b2 b3 : Byte) : Quad := b0 ++ b1 ++ b2 ++ b3

/-- The bytes of a two-byte field. -/
def halfBytes (h : Half) : List Byte := [h.extractLsb' 8 8, h.extractLsb' 0 8]

/-- The bytes of a four-byte field. -/
def quadBytes (q : Quad) : List Byte := [q.extractLsb' 24 8, q.extractLsb' 16 8, q.extractLsb' 8 8, q.extractLsb' 0 8]

/-- A flag byte: bit i is the i-th of the list. -/
def flagBits (flags : List Bool) : Nat := flags.foldr (fun b n => 2 * n + b.toNat) 0

/-! ### Check codes -/

/-- n shifts of the CRC-16 register with the polynomial 0x1021 (R172). -/
def crc16Shift : Nat → BitVec 16 → BitVec 16
  | 0, r => r
  | n + 1, r => crc16Shift n (if r.msb then (r <<< 1) ^^^ 0x1021 else r <<< 1)

/-- The CRC-16 register after one more byte (R172). -/
def crc16Byte (r : BitVec 16) (b : Byte) : BitVec 16 := crc16Shift 8 (r ^^^ (b.setWidth 16 <<< 8))

/-- CRC-16 of a list of bytes: initial value 0xFFFF, no reflection, no final exclusive-or (R172). -/
def crc16 (bytes : List Byte) : BitVec 16 := bytes.foldl crc16Byte 0xFFFF

/-- n shifts of the CRC-8 register with the polynomial 0x07 (R190). -/
def crc8Shift : Nat → BitVec 8 → BitVec 8
  | 0, r => r
  | n + 1, r => crc8Shift n (if r.msb then (r <<< 1) ^^^ 0x07 else r <<< 1)

/-- CRC-8 of a list of bytes: initial value 0x00, no reflection, no final exclusive-or (R190). -/
def crc8 (bytes : List Byte) : BitVec 8 := bytes.foldl (fun r b => crc8Shift 8 (r ^^^ b)) 0

/-! ### Integer arithmetic -/

/-- Ceiling of a / b. -/
def ceilDiv (a b : Nat) : Nat := (a + b - 1) / b

/-- The bits of the floor square root of n from bit k - 1 down, given the root found so far. -/
def isqrtFrom (n : Nat) : Nat → Nat → Nat
  | 0, r => r
  | k + 1, r => if (r + 2 ^ k) * (r + 2 ^ k) ≤ n then isqrtFrom n k (r + 2 ^ k) else isqrtFrom n k r

/-- Integer floor square root (Conventions). -/
def isqrt (n : Nat) : Nat := isqrtFrom n (n.log2 / 2 + 1) 0

/-- A residue r of 0..cpr - 1 read as a signed value: r when 2r < cpr, r - cpr otherwise (R7, R32). -/
def signedResidue (cpr r : Nat) : Int := if 2 * r < cpr then (r : Int) else (r : Int) - cpr

/-- A difference of counter values, modulo 2^32 and read as signed (R3). -/
def countDiff (now before : Count) : Int := (now - before).toInt

/-! ### Coefficients of the mounting-angle table (R111)

C_k and S_k are 4,096 times the exact cosine and sine, rounded to nearest. They are computed in fixed point with 64
fraction bits, from the angle's place in its quarter-turn, and rounded; the error is far below the distance of any of
them from a half-way value (log 20). -/

/-- One in the fixed point used. -/
def fixOne : Int := 18446744073709551616

/-- Half of pi in that fixed point. -/
def fixHalfPi : Int := 28976077832308491369

/-- The alternating power series whose term number k is the one given, with the squared angle x2, n terms of it. -/
def fixSeries : Nat → Int → Int → Int → Int
  | 0, _, _, _ => 0
  | n + 1, k, term, x2 => term - fixSeries n (k + 2) (term * x2 / fixOne / ((k + 1) * (k + 2))) x2

/-- 4,096 times a fixed-point value, rounded to nearest. -/
def fixRound (v : Int) : Int := (4096 * v + fixOne / 2) / fixOne

/-- (4,096 cos, 4,096 sin) rounded, of r/n of a quarter-turn. -/
def quarterPair (n r : Nat) : Int × Int :=
  let x := fixHalfPi * (r : Int) / (n : Int)
  let x2 := x * x / fixOne
  (fixRound (fixSeries 14 0 fixOne x2), fixRound (fixSeries 14 1 x x2))

/-- The pair (C_k, S_k) of cabin k of n (R111): k - 1 n-ths of a full turn, taken quarter by quarter. -/
def anglePair (n k : Nat) : Int × Int :=
  let j := 4 * (k - 1)
  let p := quarterPair n (j % n)
  match j / n % 4 with
  | 0 => p
  | 1 => (-p.2, p.1)
  | 2 => (-p.1, -p.2)
  | _ => (p.2, -p.1)

/-- The mounting-angle table of n cabins (R111). -/
def angleTable (n : Nat) : List (Int × Int) := (List.range n).map fun i => anglePair n (i + 1)

end Sys2Proof.Machine
end

