-- ==== Sys2Proof/Machine/State.lean ====
section
/-! DEFINITION. The state of the part, block by block, as plain data, with every value it has right after the cold reset.
Each field's rule is named in its docstring; INVENTORY.md lists them all with their reset values. -/

namespace Sys2Proof.Machine

/-! ### Faults and refusals -/

/-- Faults of a step. No rule of the spec stops the part: its faults are records in the fault banks (R156) and the part
goes on. So there is no constructor, nobody raises one, and the absence is safe: no behaviour of the part is cut off. -/
inductive Fault where
  deriving DecidableEq, Repr

/-- Refusals of a step. A refused REQUEST is no refusal here: it is a reply with a reason (R176) in a next state. -/
inductive Refusal where
  /-- Raised by an arm of exec whose command has no meaning yet; no arm does. Safe: it stops where the part goes on. -/
  | notModelled (mnemonic : String)
  deriving DecidableEq, Repr

/-! ### Hold Unit (chapter 8) -/

/-- The hold levels, from least to most restrictive (chapter 8). -/
inductive Level where
  | none
  | slow
  | noBoard
  | unloadOnly
  | stop
  | park
  deriving DecidableEq, Repr

/-- The five fault banks (chapter 9). -/
inductive BankId where
  | rotation
  | ring
  | wind
  | platform
  | link
  deriving DecidableEq, Repr

/-- The two input groups (chapter 8). -/
inductive GroupId where
  | g0
  | g1
  deriving DecidableEq, Repr

/-- Source and key of a hold entry, which together identify it (R136, R137). -/
inductive HoldId where
  | controlRoom (reason : Nat)
  | platformDesk (reason : Nat)
  | wind
  | balance
  | boarding
  | inputs (group : GroupId)
  | fault (bank : BankId)
  | link (port : Port)
  deriving DecidableEq, Repr

/-- An entry of the hold set (R136). -/
structure HoldEntry where
  id : HoldId
  level : Level
  time : Nat
  deriving DecidableEq, Repr

/-- The kind of a change of the hold set (R138). -/
inductive HoldChange where
  | insertion
  | replacement
  | removal
  deriving DecidableEq, Repr

/-- The Hold Unit: hold set in insertion order, effective level, other level (R136, R138). -/
structure Hlu where
  entries : List HoldEntry
  effective : Level
  other : Level
  deriving DecidableEq, Repr

/-! ### Position Tracker (chapter 1) -/

/-- The five platform lines, in the order a cabin crosses them (R9). -/
inductive PlatformLine where
  | a
  | d
  | l
  | c
  | x
  deriving DecidableEq, Repr

/-- The Position Tracker (chapter 1). -/
structure Ptr where
  /-- the encoder counter in the part (R3) -/
  counter : Count
  /-- the counter value read at the previous control update (R3) -/
  sample : Count
  /-- wheel angle W, 0..CPR-1 (R3) -/
  angle : Nat
  referenced : Bool
  /-- the counter value at the most recent index mark (R4) -/
  latch : Option Count
  /-- deltas of the last 20 control updates, oldest first (R11) -/
  history : List Int
  /-- consecutive control updates without movement, 0..10 (R12) -/
  zeroRun : Nat
  standstill : Bool
  /-- measured speed of the latest control update, mm/s (R11) -/
  speed : Int
  /-- last platform line raised in each cabin's current pass, cabins 1..48; none is NONE (R10) -/
  passRecords : List (Option PlatformLine)
  deriving DecidableEq, Repr

/-! ### Rotation Controller (chapter 2) -/

/-- The rotation states (R18). -/
inductive Rotation where
  | braked
  | releasing
  | running
  | standing
  | tripped
  deriving DecidableEq, Repr

/-- Origin of a limit point, which with the cabin identifies the entry (R31). -/
inductive LimitOrigin where
  | door (cabin : Nat)
  | move
  | slow
  deriving DecidableEq, Repr

/-- An entry of the limit-point list (R31). -/
structure LimitPoint where
  origin : LimitOrigin
  line : Nat
  limitSpeed : Nat
  margin : Bool
  remaining : Int
  overrunReported : Bool
  deriving DecidableEq, Repr

/-- The limiting term of the speed target (R28). -/
inductive LimitingTerm where
  | runOff
  | level
  | unreferenced
  | platform
  | curve (origin : LimitOrigin)
  | held
  deriving DecidableEq, Repr

/-- The Rotation Controller (chapter 2). A timer is none while stopped, and holds its elapsed milliseconds while it runs. -/
structure Roc where
  rotation : Rotation
  runEnable : Bool
  /-- commanded speed, um/s (R34) -/
  vCmd : Nat
  /-- effective deceleration, mm/s^2 (R35) -/
  aEff : Nat
  limits : List LimitPoint
  releaseTimer : Option Nat
  brakeSetTimer : Option Nat
  brakeConfirmed : Bool
  standTimer : Option Nat
  tracking : Nat
  grace : Option Nat
  trialStep : Bool
  /-- target of the latest control update, mm/s, and its limiting term (R28) -/
  target : Nat
  limiting : LimitingTerm
  waitingDriveReady : Bool
  /-- the word on the drive reference line (R36) -/
  driveRef : Nat
  /-- the drive reference word of the latest control update (R36, R43; log 35) -/
  updateRef : Nat
  /-- present state of the three feedback lines (R18) -/
  driveReady : Bool
  brakeReleased : Bool
  brakeSet : Bool
  deriving DecidableEq, Repr

/-! ### Move Unit (chapter 3) -/

/-- Kind of a positioning move (R44). -/
inductive MoveKind where
  | stopCabin (cabin : Nat)
  | advance (count : Nat)
  deriving DecidableEq, Repr

/-- Origin of a positioning move (R44). -/
inductive MoveOrigin where
  | controlRoom
  | platformDesk
  | boarding
  deriving DecidableEq, Repr

/-- Status of a move record; EMPTY is the absence of a record (R44). -/
inductive MoveStatus where
  | pending
  | active
  | arrived
  | done
  | cancelled
  | aborted
  deriving DecidableEq, Repr

/-- Cause of an aborted move (R44). -/
inductive MoveCause where
  | holdPark
  | position
  | decommission
  deriving DecidableEq, Repr

/-- A move record (R44). -/
structure Move where
  number : Nat
  kind : MoveKind
  origin : MoveOrigin
  status : MoveStatus
  target : Nat
  arrivalError : Option Int
  cause : Option MoveCause
  deriving DecidableEq, Repr

/-- Status of the trial record (R54). -/
inductive TrialStatus where
  | none
  | measuring
  | done
  | aborted
  deriving DecidableEq, Repr

/-- Outcome of a completed trial (R57). -/
inductive TrialOutcome where
  | accepted
  | insufficient
  deriving DecidableEq, Repr

/-- Cause of an aborted trial (R58). -/
inductive TrialAbort where
  | level
  | doorRelease
  deriving DecidableEq, Repr

/-- The deceleration trial record (R54). -/
structure Trial where
  status : TrialStatus
  v0 : Option Int
  counts : Option Int
  distance : Option Nat
  aMeas : Option Nat
  aCand : Option Nat
  outcome : Option TrialOutcome
  aEffAfter : Option Nat
  abortCause : Option TrialAbort
  startTime : Option Nat
  endTime : Option Nat
  deriving DecidableEq, Repr

/-- The Move Unit (chapter 3). -/
structure Mvu where
  slotA : Option Move
  slotB : Option Move
  /-- the number the next accepted move will receive, 1..65535 (R44) -/
  nextNumber : Nat
  trial : Trial
  deriving DecidableEq, Repr

/-! ### Cabin Ring Unit (chapter 4) -/

/-- Node state (R63). -/
inductive NodeState where
  | unknown
  | answering
  | silent
  deriving DecidableEq, Repr

/-- Door of a node record (R62). -/
inductive Door where
  | unknown
  | opened
  | moving
  | closed
  | locked
  | doorFault
  deriving DecidableEq, Repr

/-- A door command (R60). -/
inductive DoorCommand where
  | release
  | close
  deriving DecidableEq, Repr

/-- A ring command (R60). -/
inductive RingCommand where
  | poll
  | door (command : DoorCommand)
  deriving DecidableEq, Repr

/-- Kind of a ring slot (R67). -/
inductive SlotKind where
  | window
  | round
  deriving DecidableEq, Repr

/-- One cabin's node record (R62). -/
structure Node where
  state : NodeState
  door : Door
  load : Nat
  call : Bool
  selfCheck : Bool
  pending : Option DoorCommand
  taken : Bool
  awayReported : Bool
  lastAnswer : Option Nat
  deriving DecidableEq, Repr

/-- The transaction in flight (R60, R69). wait is none while the request is being sent, and holds the elapsed
milliseconds of the reply wait after that. -/
structure Transaction where
  cabin : Nat
  command : RingCommand
  retry : Bool
  /-- whether the command was taken from the cabin's pending command (R64) -/
  carried : Bool
  wait : Option Nat
  deriving DecidableEq, Repr

/-- The Cabin Ring Unit (chapter 4). -/
structure Cru where
  running : Bool
  flight : Option Transaction
  windowPointer : Option Nat
  roundPointer : Nat
  nextSlot : SlotKind
  /-- node records of cabins 1..48, of which 1..N are polled (R62) -/
  nodes : List Node
  deriving DecidableEq, Repr

/-! ### Boarding Sequencer (chapters 5 and 6) -/

/-- Boarding phase (R77, R79). -/
inductive Phase where
  | away
  | arriving
  | unloading
  | loading
  | closing
  | doorHold
  | passing
  deriving DecidableEq, Repr

/-- Service state of a cabin (R95). -/
inductive Service where
  | inService
  | suspect
  | outOfService
  deriving DecidableEq, Repr

/-- Sub-cause of NOT_RELEASED (R77). -/
inductive SubCause where
  | notInService
  | nodeSilent
  | level
  | speed
  | position
  | pointListFull
  | start
  deriving DecidableEq, Repr

/-- Last pass result (R77). -/
inductive PassResult where
  | admitted
  | noGroup
  | hold
  | balance
  | notInService
  | doorNotOpen
  | accessibleWait
  | tooLarge
  | notReleased (cause : SubCause)
  deriving DecidableEq, Repr

/-- The record of the group aboard a cabin (R77, R86). -/
structure Manifest where
  id : Nat
  size : Nat
  mass : Nat
  accessible : Bool
  admitted : Nat
  deriving DecidableEq, Repr

/-- A cabin record (R77). -/
structure Cabin where
  phase : Phase
  service : Service
  suspectCount : Nat
  cleanPass : Bool
  manifest : Option Manifest
  lastPass : Option PassResult
  releaseTime : Option Nat
  lockTime : Option Nat
  closeAnswered : Bool
  admittedThisPass : Bool
  departureDue : Bool
  deriving DecidableEq, Repr

/-- How a group record came by its mass (R102). -/
inductive MassSource where
  | declared
  | raised
  | default
  deriving DecidableEq, Repr

/-- A group record of the queue (R102). -/
structure Group where
  id : Nat
  size : Nat
  declared : Option Nat
  source : MassSource
  accessible : Bool
  accepted : Nat
  deriving DecidableEq, Repr

/-- The Boarding Sequencer's move: the cabin, the move number and the last status handed over (chapter 5). -/
structure BoardingMove where
  cabin : Nat
  number : Nat
  status : MoveStatus
  deriving DecidableEq, Repr

/-- The Boarding Sequencer (chapters 5 and 6). The bring-home entry and the balance entry stand in the hold set. -/
structure Bsq where
  /-- cabin records 1..48 (R101) -/
  cabins : List Cabin
  slowTarget : Option Nat
  /-- Whether the SLOW target has crossed its D line since it was chosen (R81). -/
  slowCrossed : Bool
  boardingMove : Option BoardingMove
  /-- the cabin the gate is unlocked for; none is LOCKED (R88) -/
  gate : Option Nat
  queue : List Group
  /-- the mounting-angle table: none is NOT_BUILT, and a BUILT table has one pair per cabin (R111) -/
  angles : Option (List (Int × Int))
  sumX : Int
  sumY : Int
  sumQ : Int
  deriving DecidableEq, Repr

/-! ### Wind Monitor (chapter 7) -/

/-- Validity of a channel (R117). -/
inductive Validity where
  | valid
  | implausible
  | disabled
  deriving DecidableEq, Repr

/-- A channel record with its pulse counter (R117, R119). -/
structure ChannelRec where
  enable : Bool
  kc : Nat
  validity : Validity
  /-- up to 12 samples, oldest first (R120) -/
  ring : List Nat
  sampleCount : Nat
  gust : Nat
  meanQ : Nat
  initialised : Bool
  mean : Nat
  clamped : Bool
  zeroRun : Nat
  recoveryRun : Nat
  pulses : Nat
  deriving DecidableEq, Repr

/-- The three channel records. -/
structure ChannelRecs where
  hub : ChannelRec
  platform : ChannelRec
  river : ChannelRec
  deriving DecidableEq, Repr

/-- Wind level (R129). -/
inductive WindLevel where
  | calm
  | breeze
  | gusty
  | strong
  | severe
  deriving DecidableEq, Repr

/-- The four thresholds of one wind level (R126). -/
structure Thresholds where
  enterGust : Nat
  enterMean : Nat
  exitGust : Nat
  exitMean : Nat
  deriving DecidableEq, Repr

/-- A wind profile (R126). -/
structure Profile where
  breeze : Thresholds
  gusty : Thresholds
  strong : Thresholds
  severe : Thresholds
  calmPeriod : Nat
  deriving DecidableEq, Repr

/-- The number of a wind profile (R126). -/
inductive ProfileId where
  | p0
  | p1
  deriving DecidableEq, Repr

/-- Cause of a WIND_LEVEL notice (R132). -/
inductive WindCause where
  | rise
  | floor
  | fall
  | select
  | reset
  deriving DecidableEq, Repr

/-- The floor conditions of a sample (R125). -/
structure FloorConds where
  noValid : Bool
  oneValid : Bool
  warmUp : Bool
  deriving DecidableEq, Repr

/-- The Wind Monitor (chapter 7). The wind hold entry stands in the hold set. -/
structure Wmn where
  channels : ChannelRecs
  profile0 : Profile
  profile1 : Profile
  operative : ProfileId
  level : WindLevel
  /-- calm timer in samples, and whether it runs (R130) -/
  calm : Nat
  calmRuns : Bool
  /-- warm-up count, 0..240 samples (R125) -/
  warmUp : Nat
  noValid : Bool
  /-- governing gust and mean of the latest sample (R124) -/
  gust : Nat
  mean : Nat
  /-- warranted level, floor level and floor conditions of the latest sample (R133) -/
  warranted : WindLevel
  floorLevel : WindLevel
  floorConds : FloorConds
  deriving DecidableEq, Repr

/-! ### Platform Input Monitor (chapter 8) -/

/-- One platform input: raw value, filtered value, filter timer (R144). -/
structure Input where
  raw : Bool
  filtered : Bool
  timer : Option Nat
  deriving DecidableEq, Repr

/-- Cause of an INPUT_FACTOR notice (R146). -/
inductive InputCause where
  | input (index : Nat)
  | write
  | reset
  deriving DecidableEq, Repr

/-- One input group: its INPUTS table entry (R145), match state and factor flag (R146). -/
structure InputGroup where
  select : BitVec 8
  expected : BitVec 8
  level : Level
  noticeEnable : Bool
  /-- true is MATCH -/
  isMatch : Bool
  factor : Bool
  deriving DecidableEq, Repr

/-- The Platform Input Monitor (chapter 8). -/
structure Pim where
  inputs : List Input
  g0 : InputGroup
  g1 : InputGroup
  deriving DecidableEq, Repr

/-! ### Fault Bank Unit (chapter 9) -/

/-- The fault codes, in the row order of the catalogue of R155. -/
inductive FaultCode where
  | encoderJump
  | reverseMotion
  | trackingError
  | stopOverrun
  | brakeSetTimeout
  | brakeReleaseTimeout
  | indexMismatch
  | decelInsufficient
  | speedOverBoard
  | nodeRetryOk
  | loadOverRange
  | nodeSilentAway
  | nodeSelfCheck
  | doorCloseLate
  | nodeSilentPlatform
  | doorOpenAway
  | channelRange
  | channelImplausible
  | noValidChannel
  | inputMismatch
  | crcError
  | frameTimeout
  | inputOverrun
  | presenceLost
  deriving DecidableEq, Repr

/-- Class of a fault (R155). -/
inductive FaultClass where
  | correctable
  | deferred
  | uncorrectable
  deriving DecidableEq, Repr

/-- Scope of a fault (R155). -/
inductive FaultScope where
  | signal
  | cabin
  | wheel
  deriving DecidableEq, Repr

/-- Hold action of a WHEEL fault, and hold level of a pending bank (R155, R163). -/
inductive FaultAction where
  | stop
  | park
  deriving DecidableEq, Repr

/-- Disposition of a report (R161). -/
inductive Disposition where
  | written
  | replaced
  | notWritten
  deriving DecidableEq, Repr

/-- A fault record (R157). Class, scope and action are the code's, by the catalogue. -/
structure FaultRecord where
  code : FaultCode
  subject : Option Nat
  angle : Nat
  time : Nat
  beforeRestart : Bool
  deriving DecidableEq, Repr

/-- A fault bank (R157) with its FAULT_CTL entry (R160). hold is the hold level, which the spec has present exactly while
the bank is pending; the pending flag is its presence. -/
structure Bank where
  record : Option FaultRecord
  overflow : Bool
  hold : Option FaultAction
  counter : Nat
  thresholdReached : Bool
  threshold : Nat
  noticeCorrectable : Bool
  noticeDeferred : Bool
  /-- detect mask: bit c - 1 is set when code number c is masked (R158) -/
  mask : BitVec 32
  deriving DecidableEq, Repr

/-- The Fault Bank Unit (chapter 9). -/
structure Fbu where
  rotation : Bank
  ring : Bank
  wind : Bank
  platform : Bank
  link : Bank
  deriving DecidableEq, Repr

/-! ### Notices and Link Ports (chapter 10) -/

/-- The two move slots (R44). -/
inductive Slot where
  | a
  | b
  deriving DecidableEq, Repr

/-- Cause of a CABIN_SERVICE notice (R95, R96, R97). -/
inductive ServiceCause where
  | fault (code : FaultCode)
  | requalified
  | request
  deriving DecidableEq, Repr

/-- The notices of the part (notice list of chapter 10), each with the fields its producing rule names. -/
inductive Notice where
  /-- R138 -/
  | levelChanged (new previous : Level) (id : HoldId) (change : HoldChange) (level : Option Level) (entries clock : Nat)
  /-- R132 -/
  | windLevel (new : WindLevel) (hold : Level) (previous : Option WindLevel) (cause : WindCause) (gust mean valid : Nat)
      (operative : ProfileId) (clock : Nat)
  /-- R86 -/
  | groupAdmitted (cabin : Nat) (manifest : Manifest) (left : Nat)
  /-- R93 -/
  | cabinDeparted (cabin : Nat) (group : Option Nat) (result : Option PassResult) (release lock : Option Nat) (clock : Nat)
  /-- R91 -/
  | cabinDoorHold (cabin : Nat) (door : Door) (node : NodeState) (remaining : Int) (clock : Nat)
  /-- R74 -/
  | cabinCall (cabin : Nat) (door : Door) (load : Nat) (phase : Phase) (clock : Nat)
  /-- R95, R96, R97 -/
  | cabinService (cabin : Nat) (service : Service) (count : Nat) (cause : ServiceCause)
  /-- R108 -/
  | queueHalf (count clock : Nat)
  /-- R108 -/
  | queueFull (count clock : Nat)
  /-- R108 -/
  | queueEmpty (count clock : Nat)
  /-- R53 -/
  | moveStatus (slot : Slot) (record : Option Move)
  /-- R57, R58 -/
  | trialDone (record : Trial)
  /-- R25 -/
  | trip (rotation : Rotation) (vCmd : Nat) (speed : Int) (angle : Nat) (referenced : Bool) (clock : Nat)
  /-- R162 -/
  | faultLogged (code : FaultCode) (subject : Option Nat) (angle time : Nat) (disposition : Disposition) (counter : Nat)
      (overflow : Bool) (hold : Option FaultAction)
  /-- R159 -/
  | threshold (bank : BankId) (counter limit : Nat) (code : FaultCode) (subject : Option Nat) (clock : Nat)
  /-- R146 -/
  | inputFactor (group : GroupId) (cause : InputCause) (filtered select expected : BitVec 8) (level : Level) (clock : Nat)
  /-- R98 -/
  | bringHomeComplete (angle clock : Nat)
  deriving DecidableEq, Repr

/-- KIND, TAG and payload of a frame; LEN and CRC-16 follow from them (R172). -/
structure Frame where
  kind : Byte
  tag : Byte
  payload : List Byte
  deriving DecidableEq, Repr

/-- What a transmitter is sending: a reply, or a notice (R177). -/
inductive Outgoing where
  | reply (frame : Frame)
  | notice (notice : Notice)
  deriving DecidableEq, Repr

/-- A port's receiver (R173): bytes holds what came after START, elapsed the frame timer's milliseconds. -/
inductive Receiver where
  | hunting
  | inFrame (bytes : List Byte) (elapsed : Nat)
  deriving DecidableEq, Repr

/-- A running presence timer: its milliseconds, and the presence time in seconds toward which it runs, the table's at its
start (R151, R152). -/
structure PresenceTimer where
  elapsed : Nat
  time : Nat
  deriving DecidableEq, Repr

/-- A link port (chapter 10) with its LINK table entry (R151) and presence timer (R152). lateExpiry is this model's own: the
timer had reached its time when it was last started again or stopped, within the present millisecond, so that an expiry
that still waits is no longer to be taken (R152; log 49). -/
structure PortState where
  receiver : Receiver
  fifo : List Frame
  reply : Option Frame
  transmitter : Option Outgoing
  outbox : List Notice
  noticeLost : Bool
  presence : Option PresenceTimer
  lateExpiry : Bool
  presenceTime : Nat
  presenceLevel : Level
  deriving DecidableEq, Repr

/-- The Link Ports. -/
structure Lkp where
  p1 : PortState
  p2 : PortState
  deriving DecidableEq, Repr

/-! ### Configuration Store (chapter 10) -/

/-- Device state (R182). -/
inductive Device where
  | config
  | service
  deriving DecidableEq, Repr

/-- The GEOMETRY table (R1). -/
structure Geometry where
  n : Nat
  p : Nat
  u : Nat
  iRef : Nat
  tIdx : Nat
  deriving DecidableEq, Repr

/-- The ZONES table (R2). -/
structure Zones where
  a : Int
  d : Int
  c : Int
  x : Int
  o : Nat
  deriving DecidableEq, Repr

/-- The SPEEDS table (R19). -/
structure Speeds where
  cruise : Nat
  board : Nat
  capSlow : Nat
  capNoBoard : Nat
  capUnloadOnly : Nat
  aAcc : Nat
  aCfg : Nat
  aMin : Nat
  margin : Nat
  trackLim : Nat
  tStand : Nat
  deriving DecidableEq, Repr

/-- The RING table (R59, R179). -/
structure RingTable where
  tNode : Nat
  tCloseMax : Nat
  deriving DecidableEq, Repr

/-- The BOARDING table (R78, R48, R113). -/
structure BoardingTable where
  empty : Nat
  capacity : Nat
  maxLoad : Nat
  k : Nat
  tStop : Nat
  perPerson : Nat
  deriving DecidableEq, Repr

/-- The BALANCE table (R113). -/
structure BalanceTable where
  lim : Nat
  warn : Nat
  clear : Nat
  deriving DecidableEq, Repr

/-- The Configuration Store: device state, service clock, commissioned geometry and the tables that have no other home. -/
structure Cfs where
  device : Device
  clock : Nat
  commissioned : Option Geometry
  geometry : Geometry
  zones : Zones
  speeds : Speeds
  ring : RingTable
  boarding : BoardingTable
  balance : BalanceTable
  deriving DecidableEq, Repr

/-- The part's time base (chapter 11, Clock): whether a reset is held, and the milliseconds gone of the control timer's
50, the sample timer's 250 and the service clock's 1,000. -/
structure TimeBase where
  resetHeld : Bool
  control : Nat
  sample : Nat
  second : Nat
  deriving DecidableEq, Repr

/-- The state of the part, and the queue of the commands that wait (log 1). -/
structure State where
  ptr : Ptr
  roc : Roc
  mvu : Mvu
  cru : Cru
  bsq : Bsq
  wmn : Wmn
  hlu : Hlu
  pim : Pim
  fbu : Fbu
  lkp : Lkp
  cfs : Cfs
  time : TimeBase
  /-- the commands that wait, the front first -/
  pending : List Instr
  deriving DecidableEq, Repr

/-! ### Cold reset values -/

/-- How many cabin records the part holds (R101). -/
abbrev maxCabins : Nat := 48

/-- GEOMETRY defaults (R1). -/
def Geometry.cold : Geometry := { n := 36, p := 8192, u := 1278, iRef := 0, tIdx := 24 }

/-- ZONES defaults (R2). -/
def Zones.cold : Zones := { a := -12288, d := -4096, c := 4096, x := 8192, o := 128 }

/-- SPEEDS defaults (R19). -/
def Speeds.cold : Speeds :=
  { cruise := 260, board := 180, capSlow := 180, capNoBoard := 180, capUnloadOnly := 180, aAcc := 20, aCfg := 40,
    aMin := 20, margin := 100, trackLim := 40, tStand := 20 }

/-- RING defaults (R59, R179). -/
def RingTable.cold : RingTable := { tNode := 20, tCloseMax := 4 }

/-- BOARDING defaults (R78, R48, R113). -/
def BoardingTable.cold : BoardingTable :=
  { empty := 30, capacity := 25, maxLoad := 2400, k := 3, tStop := 64, perPerson := 80 }

/-- BALANCE defaults (R113). -/
def BalanceTable.cold : BalanceTable := { lim := 750, warn := 600, clear := 450 }

/-- The Configuration Store at cold reset (R182, R185). -/
def Cfs.cold : Cfs :=
  { device := .config, clock := 0, commissioned := none, geometry := .cold, zones := .cold, speeds := .cold,
    ring := .cold, boarding := .cold, balance := .cold }

/-- The Position Tracker at cold reset (R15); the counter is no register of the reset and starts at 0 (log 2). -/
def Ptr.cold : Ptr :=
  { counter := 0, sample := 0, angle := 0, referenced := false, latch := none, history := [], zeroRun := 0,
    standstill := false, speed := 0, passRecords := List.replicate maxCabins none }

/-- The Rotation Controller at cold reset (R41); target and limiting term, the latest update's word, waiting-drive-ready
and the three lines are this model's values (log 2). -/
def Roc.cold : Roc :=
  { rotation := .braked, runEnable := false, vCmd := 0, aEff := 40, limits := [], releaseTimer := none,
    brakeSetTimer := none, brakeConfirmed := false, standTimer := none, tracking := 0, grace := none, trialStep := false,
    target := 0, limiting := .held, waitingDriveReady := false, driveRef := 0, updateRef := 0,
    driveReady := false, brakeReleased := false, brakeSet := false }

/-- The trial record at cold reset (R54). -/
def Trial.cold : Trial :=
  { status := .none, v0 := none, counts := none, distance := none, aMeas := none, aCand := none, outcome := none,
    aEffAfter := none, abortCause := none, startTime := none, endTime := none }

/-- The Move Unit at cold reset (R52). -/
def Mvu.cold : Mvu := { slotA := none, slotB := none, nextNumber := 1, trial := .cold }

/-- A node record at either reset (R62). -/
def Node.cold : Node :=
  { state := .unknown, door := .unknown, load := 0, call := false, selfCheck := false, pending := none, taken := false,
    awayReported := false, lastAnswer := none }

/-- The Cabin Ring Unit at cold reset, its round pointer at the default N (R76). -/
def Cru.cold : Cru :=
  { running := false, flight := none, windowPointer := none, roundPointer := 36, nextSlot := .window,
    nodes := List.replicate maxCabins .cold }

/-- A cabin record at cold reset (R77). -/
def Cabin.cold : Cabin :=
  { phase := .away, service := .inService, suspectCount := 0, cleanPass := false, manifest := none, lastPass := none,
    releaseTime := none, lockTime := none, closeAnswered := false, admittedThisPass := false, departureDue := false }

/-- The Boarding Sequencer at cold reset (R101, R103, R111, R112). -/
def Bsq.cold : Bsq :=
  { cabins := List.replicate maxCabins .cold, slowTarget := none, slowCrossed := false, boardingMove := none, gate := none, queue := [],
    angles := none, sumX := 0, sumY := 0, sumQ := 0 }

/-- A channel record at cold reset (R117, R134). -/
def ChannelRec.cold : ChannelRec :=
  { enable := false, kc := 0, validity := .disabled, ring := [], sampleCount := 0, gust := 0, meanQ := 0,
    initialised := false, mean := 0, clamped := false, zeroRun := 0, recoveryRun := 0, pulses := 0 }

/-- The reference values of a wind profile (R126). -/
def Profile.cold : Profile :=
  { breeze := { enterGust := 120, enterMean := 80, exitGust := 100, exitMean := 60 }
    gusty := { enterGust := 160, enterMean := 110, exitGust := 140, exitMean := 90 }
    strong := { enterGust := 200, enterMean := 140, exitGust := 170, exitMean := 120 }
    severe := { enterGust := 250, enterMean := 180, exitGust := 220, exitMean := 150 }
    calmPeriod := 600 }

/-- The Wind Monitor after the end of the cold reset (R134); the three fields of the latest sample are this model's (log 2). -/
def Wmn.cold : Wmn :=
  { channels := { hub := .cold, platform := .cold, river := .cold }, profile0 := .cold, profile1 := .cold,
    operative := .p0, level := .gusty, calm := 0, calmRuns := true, warmUp := 0, noValid := true, gust := 0, mean := 0,
    warranted := .calm, floorLevel := .calm, floorConds := { noValid := false, oneValid := false, warmUp := false } }

/-- The Hold Unit while a reset is held (R143). -/
def Hlu.cold : Hlu := { entries := [], effective := .none, other := .none }

/-- An input at cold reset with its pin off (log 2; R144). -/
def Input.cold : Input := { raw := false, filtered := false, timer := none }

/-- An input group at cold reset (R145, R150). -/
def InputGroup.cold : InputGroup :=
  { select := 0, expected := 0, level := .none, noticeEnable := false, isMatch := true, factor := false }

/-- The Platform Input Monitor at cold reset (R150). -/
def Pim.cold : Pim := { inputs := List.replicate 16 .cold, g0 := .cold, g1 := .cold }

/-- A fault bank at cold reset, with its threshold's default (R157, R160). -/
def Bank.cold (threshold : Nat) : Bank :=
  { record := none, overflow := false, hold := none, counter := 0, thresholdReached := false, threshold := threshold,
    noticeCorrectable := false, noticeDeferred := true, mask := 0 }

/-- The fault banks at cold reset (R160, R170). -/
def Fbu.cold : Fbu :=
  { rotation := .cold 8, ring := .cold 32, wind := .cold 8, platform := .cold 8, link := .cold 16 }

/-- A link port while the cold reset is held (R178, R151). -/
def PortState.cold : PortState :=
  { receiver := .hunting, fifo := [], reply := none, transmitter := none, outbox := [], noticeLost := false,
    presence := none, lateExpiry := false, presenceTime := 10, presenceLevel := .noBoard }

/-- The link ports while the cold reset is held (R178). -/
def Lkp.cold : Lkp := { p1 := .cold, p2 := .cold }

/-- A port right after the end of the cold reset: the two notices of the wind entry have been produced (R134, R138), and
the idle transmitter has begun the first of them (R177; their order: log 11). -/
def PortState.afterCold : PortState :=
  { PortState.cold with
    transmitter := some (.notice (.levelChanged .noBoard .none .wind .insertion (some .noBoard) 1 0))
    outbox := [.windLevel .gusty .noBoard none .reset 0 0 0 .p0 0] }

/-- The machine right after the cold reset has ended (R15, R41, R134, R143, R150, R170, R178), its pins at the values of
log 2: the wind entry stands in the hold set, the brake-set timer runs from 0, and no command waits. -/
def State.reset : State :=
  { ptr := .cold
    roc := { Roc.cold with brakeSetTimer := some 0 }
    mvu := .cold
    cru := .cold
    bsq := .cold
    wmn := .cold
    hlu := { entries := [{ id := .wind, level := .noBoard, time := 0 }], effective := .noBoard, other := .noBoard }
    pim := .cold
    fbu := .cold
    lkp := { p1 := .afterCold, p2 := .afterCold }
    cfs := .cold
    time := { resetHeld := false, control := 0, sample := 0, second := 0 }
    pending := [] }

end Sys2Proof.Machine
end

