-- ==== Sys2Proof/Machine/Codes.lean ====
section
/-! DEFINITION. The value codes of chapter 11, the orders of the levels, the fault catalogue of R155, and the geometry of
R7 and R8 as functions of the tables. -/

namespace Sys2Proof.Machine

/-! ### Hold levels -/

/-- Code and order of a hold level (value codes; chapter 8). -/
def Level.code : Level → Nat
  | .none => 0
  | .slow => 1
  | .noBoard => 2
  | .unloadOnly => 3
  | .stop => 4
  | .park => 5

/-- The level with a code. -/
def Level.ofCode : Nat → Option Level
  | 0 => some .none
  | 1 => some .slow
  | 2 => some .noBoard
  | 3 => some .unloadOnly
  | 4 => some .stop
  | 5 => some .park
  | _ => Option.none

/-- a is at or above b. -/
def Level.atLeast (a b : Level) : Bool := decide (b.code ≤ a.code)

/-- The higher of two levels. -/
def Level.max (a b : Level) : Level := if a.code ≤ b.code then b else a

/-- The highest level of a list of entries, NONE when it is empty (R138). -/
def highestLevel (entries : List HoldEntry) : Level := entries.foldl (fun l e => l.max e.level) .none

/-- A fault action as a hold level. -/
def FaultAction.level : FaultAction → Level
  | .stop => .stop
  | .park => .park

/-- Code of an optional fault action, 0 for absent. -/
def actionCode : Option FaultAction → Nat
  | none => 0
  | some a => a.level.code

/-- Code of an optional hold level, 0 for absent. -/
def levelCode : Option Level → Nat
  | none => 0
  | some l => l.code

/-! ### Wind levels -/

/-- Code and order of a wind level. -/
def WindLevel.code : WindLevel → Nat
  | .calm => 0
  | .breeze => 1
  | .gusty => 2
  | .strong => 3
  | .severe => 4

/-- One level down, CALM staying (R130). -/
def WindLevel.below : WindLevel → WindLevel
  | .calm => .calm
  | .breeze => .calm
  | .gusty => .breeze
  | .strong => .gusty
  | .severe => .strong

/-- The higher of two wind levels. -/
def WindLevel.max (a b : WindLevel) : WindLevel := if a.code ≤ b.code then b else a

/-- The hold level of a wind level; NONE keeps no entry (R131). -/
def WindLevel.hold : WindLevel → Level
  | .calm => .none
  | .breeze => .slow
  | .gusty => .noBoard
  | .strong => .unloadOnly
  | .severe => .stop

/-! ### Banks, ports, groups, channels -/

/-- Number of a bank (chapter 9). -/
def BankId.number : BankId → Nat
  | .rotation => 1
  | .ring => 2
  | .wind => 3
  | .platform => 4
  | .link => 5

/-- The bank with a number. -/
def BankId.ofNumber : Nat → Option BankId
  | 1 => some .rotation
  | 2 => some .ring
  | 3 => some .wind
  | 4 => some .platform
  | 5 => some .link
  | _ => none

/-- The banks in bank-number order. -/
def allBanks : List BankId := [.rotation, .ring, .wind, .platform, .link]

/-- Number of a port. -/
def portNumber : Port → Nat
  | .p1 => 1
  | .p2 => 2

/-- The other port. -/
def otherPort : Port → Port
  | .p1 => .p2
  | .p2 => .p1

/-- Number of a group. -/
def GroupId.number : GroupId → Nat
  | .g0 => 0
  | .g1 => 1

/-- The group with a number. -/
def GroupId.ofNumber : Nat → Option GroupId
  | 0 => some .g0
  | 1 => some .g1
  | _ => none

/-- Number of a channel. -/
def channelNumber : Channel → Nat
  | .hub => 1
  | .platform => 2
  | .river => 3

/-- The channel with a number. -/
def channelOfNumber : Nat → Option Channel
  | 1 => some .hub
  | 2 => some .platform
  | 3 => some .river
  | _ => none

/-- The channels in order. -/
def allChannels : List Channel := [.hub, .platform, .river]

/-- Number of a profile. -/
def ProfileId.number : ProfileId → Nat
  | .p0 => 0
  | .p1 => 1

/-- The profile with a number. -/
def ProfileId.ofNumber : Nat → Option ProfileId
  | 0 => some .p0
  | 1 => some .p1
  | _ => none

/-! ### Other value codes (value code table of chapter 11) -/

def Device.code : Device → Nat
  | .config => 1
  | .service => 2

def Rotation.code : Rotation → Nat
  | .braked => 1
  | .releasing => 2
  | .running => 3
  | .standing => 4
  | .tripped => 5

def LimitingTerm.code : LimitingTerm → Nat
  | .runOff => 1
  | .level => 2
  | .unreferenced => 3
  | .platform => 4
  | .curve _ => 5
  | .held => 6

def Phase.code : Phase → Nat
  | .away => 1
  | .arriving => 2
  | .unloading => 3
  | .loading => 4
  | .closing => 5
  | .doorHold => 6
  | .passing => 7

def Service.code : Service → Nat
  | .inService => 1
  | .suspect => 2
  | .outOfService => 3

def NodeState.code : NodeState → Nat
  | .unknown => 1
  | .answering => 2
  | .silent => 3

def Door.code : Door → Nat
  | .unknown => 0
  | .opened => 1
  | .moving => 2
  | .closed => 3
  | .locked => 4
  | .doorFault => 5

/-- The door state of a ring reply's door code, 1..5 (R190). -/
def Door.ofCode : Nat → Option Door
  | 1 => some .opened
  | 2 => some .moving
  | 3 => some .closed
  | 4 => some .locked
  | 5 => some .doorFault
  | _ => none

def RingCommand.code : RingCommand → Nat
  | .poll => 1
  | .door .release => 2
  | .door .close => 3

/-- Code of a pending command, 0 for none. -/
def pendingCode : Option DoorCommand → Nat
  | none => 0
  | some c => (RingCommand.door c).code

def SubCause.code : SubCause → Nat
  | .notInService => 1
  | .nodeSilent => 2
  | .level => 3
  | .speed => 4
  | .position => 5
  | .pointListFull => 6
  | .start => 7

/-- Last pass result and sub-cause codes, 0 for absent and none. -/
def passResultCodes : Option PassResult → Nat × Nat
  | none => (0, 0)
  | some .admitted => (1, 0)
  | some .noGroup => (2, 0)
  | some .hold => (3, 0)
  | some .balance => (4, 0)
  | some .notInService => (5, 0)
  | some .doorNotOpen => (6, 0)
  | some .accessibleWait => (7, 0)
  | some .tooLarge => (8, 0)
  | some (.notReleased c) => (9, c.code)

def MoveStatus.code : MoveStatus → Nat
  | .pending => 1
  | .active => 2
  | .arrived => 3
  | .done => 4
  | .cancelled => 5
  | .aborted => 6

def MoveOrigin.code : MoveOrigin → Nat
  | .controlRoom => 1
  | .platformDesk => 2
  | .boarding => 3

/-- Code of a move kind and its operand. -/
def MoveKind.codes : MoveKind → Nat × Nat
  | .stopCabin k => (1, k)
  | .advance n => (2, n)

def moveCauseCode : Option MoveCause → Nat
  | none => 0
  | some .holdPark => 1
  | some .position => 2
  | some .decommission => 3

def TrialStatus.code : TrialStatus → Nat
  | .none => 0
  | .measuring => 1
  | .done => 2
  | .aborted => 3

def trialOutcomeCode : Option TrialOutcome → Nat
  | none => 0
  | some .accepted => 1
  | some .insufficient => 2

def trialAbortCode : Option TrialAbort → Nat
  | none => 0
  | some .level => 1
  | some .doorRelease => 2

/-- Slot A is 1 as in the limit-point entries of STATUS; slot B is 2 (log 17). -/
def Slot.code : Slot → Nat
  | .a => 1
  | .b => 2

def SlotKind.code : SlotKind → Nat
  | .window => 1
  | .round => 2

def FaultClass.code : FaultClass → Nat
  | .correctable => 1
  | .deferred => 2
  | .uncorrectable => 3

def FaultScope.code : FaultScope → Nat
  | .signal => 1
  | .cabin => 2
  | .wheel => 3

def Disposition.code : Disposition → Nat
  | .written => 1
  | .replaced => 2
  | .notWritten => 3

def MassSource.code : MassSource → Nat
  | .declared => 1
  | .raised => 2
  | .default => 3

/-- Origin code and cabin or slot of a limit point: cabin for DOOR, 1 for slot A, 0 for SLOW (STATUS layout). -/
def LimitOrigin.codes : LimitOrigin → Nat × Nat
  | .door k => (1, k)
  | .move => (2, 1)
  | .slow => (3, 0)

/-- Source code of a hold entry, and its key. -/
def HoldId.codes : HoldId → Nat × Option Nat
  | .controlRoom r => (1, some r)
  | .platformDesk r => (2, some r)
  | .wind => (3, none)
  | .balance => (4, none)
  | .boarding => (5, none)
  | .inputs g => (6, some g.number)
  | .fault b => (7, some b.number)
  | .link p => (8, some (portNumber p))

def HoldChange.code : HoldChange → Nat
  | .insertion => 1
  | .replacement => 2
  | .removal => 3

def Validity.code : Validity → Nat
  | .valid => 1
  | .implausible => 2
  | .disabled => 3

def WindCause.code : WindCause → Nat
  | .rise => 1
  | .floor => 2
  | .fall => 3
  | .select => 4
  | .reset => 5

/-- Code of an INPUT_FACTOR cause, and the input it names. -/
def InputCause.codes : InputCause → Nat × Option Nat
  | .input i => (1, some i)
  | .write => (2, none)
  | .reset => (3, none)

/-! ### The fault catalogue (R155) -/

/-- Number of a fault code, 1..24 in the row order of the catalogue (chapter 11, Kinds). -/
def FaultCode.number : FaultCode → Nat
  | .encoderJump => 1
  | .reverseMotion => 2
  | .trackingError => 3
  | .stopOverrun => 4
  | .brakeSetTimeout => 5
  | .brakeReleaseTimeout => 6
  | .indexMismatch => 7
  | .decelInsufficient => 8
  | .speedOverBoard => 9
  | .nodeRetryOk => 10
  | .loadOverRange => 11
  | .nodeSilentAway => 12
  | .nodeSelfCheck => 13
  | .doorCloseLate => 14
  | .nodeSilentPlatform => 15
  | .doorOpenAway => 16
  | .channelRange => 17
  | .channelImplausible => 18
  | .noValidChannel => 19
  | .inputMismatch => 20
  | .crcError => 21
  | .frameTimeout => 22
  | .inputOverrun => 23
  | .presenceLost => 24

/-- The codes of the catalogue in its row order. -/
def allFaultCodes : List FaultCode :=
  [.encoderJump, .reverseMotion, .trackingError, .stopOverrun, .brakeSetTimeout, .brakeReleaseTimeout, .indexMismatch,
   .decelInsufficient, .speedOverBoard, .nodeRetryOk, .loadOverRange, .nodeSilentAway, .nodeSelfCheck, .doorCloseLate,
   .nodeSilentPlatform, .doorOpenAway, .channelRange, .channelImplausible, .noValidChannel, .inputMismatch, .crcError,
   .frameTimeout, .inputOverrun, .presenceLost]

/-- The code with a number. -/
def FaultCode.ofNumber (n : Nat) : Option FaultCode := if n = 0 then none else allFaultCodes[n - 1]?

/-- Bank of a code. -/
def FaultCode.bank : FaultCode → BankId
  | .encoderJump | .reverseMotion | .trackingError | .stopOverrun | .brakeSetTimeout | .brakeReleaseTimeout
  | .indexMismatch | .decelInsufficient | .speedOverBoard => .rotation
  | .nodeRetryOk | .loadOverRange | .nodeSilentAway | .nodeSelfCheck | .doorCloseLate | .nodeSilentPlatform
  | .doorOpenAway => .ring
  | .channelRange | .channelImplausible | .noValidChannel => .wind
  | .inputMismatch => .platform
  | .crcError | .frameTimeout | .inputOverrun | .presenceLost => .link

/-- Class of a code. -/
def FaultCode.cls : FaultCode → FaultClass
  | .encoderJump | .reverseMotion | .trackingError | .stopOverrun | .brakeSetTimeout | .brakeReleaseTimeout
  | .indexMismatch | .decelInsufficient | .nodeSilentPlatform | .doorOpenAway => .uncorrectable
  | .nodeSilentAway | .nodeSelfCheck | .doorCloseLate | .channelImplausible | .noValidChannel | .presenceLost => .deferred
  | .speedOverBoard | .nodeRetryOk | .loadOverRange | .channelRange | .inputMismatch | .crcError | .frameTimeout
  | .inputOverrun => .correctable

/-- Scope of a code. -/
def FaultCode.scope : FaultCode → FaultScope
  | .encoderJump | .reverseMotion | .trackingError | .stopOverrun | .brakeSetTimeout | .brakeReleaseTimeout
  | .indexMismatch | .decelInsufficient | .nodeSilentPlatform | .doorOpenAway => .wheel
  | .nodeSilentAway | .nodeSelfCheck | .doorCloseLate => .cabin
  | .speedOverBoard | .nodeRetryOk | .loadOverRange | .channelRange | .channelImplausible | .noValidChannel
  | .inputMismatch | .crcError | .frameTimeout | .inputOverrun | .presenceLost => .signal

/-- Hold action of a code, for WHEEL scope. -/
def FaultCode.action : FaultCode → Option FaultAction
  | .encoderJump | .reverseMotion | .trackingError | .stopOverrun | .brakeSetTimeout => some .park
  | .brakeReleaseTimeout | .indexMismatch | .decelInsufficient | .nodeSilentPlatform | .doorOpenAway => some .stop
  | _ => none

/-! ### Lines and positions (R7, R8) -/

/-- Order of the platform lines: NONE comes before A (R10). -/
def lineRank : Option PlatformLine → Nat
  | none => 0
  | some .a => 1
  | some .d => 2
  | some .l => 3
  | some .c => 4
  | some .x => 5

/-- The platform lines in line order. -/
def allLines : List PlatformLine := [.a, .d, .l, .c, .x]

/-- Position of a platform line relative to the load line (R2). -/
def Zones.line (z : Zones) : PlatformLine → Int
  | .a => z.a
  | .d => z.d
  | .l => 0
  | .c => z.c
  | .x => z.x

/-- Counts per revolution (R1). -/
def Geometry.cpr (g : Geometry) : Nat := g.n * g.p

/-- Position of cabin k at wheel angle w (R7). -/
def Geometry.position (g : Geometry) (w k : Nat) : Int :=
  signedResidue g.cpr (((w : Int) - ((k - 1) * g.p : Nat)) % (g.cpr : Int)).toNat

/-- Absolute wheel angle at which cabin k stands at a line (R7). -/
def Geometry.lineAngle (g : Geometry) (k : Nat) (offset : Int) : Nat :=
  ((((k - 1) * g.p : Nat) + offset) % (g.cpr : Int)).toNat

/-- Forward distance from angle w to angle t (R7). -/
def Geometry.forward (g : Geometry) (w t : Nat) : Nat := (((t : Int) - (w : Int)) % (g.cpr : Int)).toNat

/-- Whether a position lies in the platform window (R8). -/
def Zones.inWindow (z : Zones) (position : Int) : Bool := decide (z.a ≤ position ∧ position < z.x + z.o)

/-- The cabin numbers 1..N. -/
def Geometry.cabins (g : Geometry) : List Nat := (List.range g.n).map (· + 1)

end Sys2Proof.Machine
end

