-- ==== Sys2Proof/Machine/Ops.lean ====
section
/-! DEFINITION. The named operations over the parts of State: reading and writing one cabin, node, port, bank, channel,
group or input, placing a notice in the outboxes (R177), and forming the hold set (R136, R138). -/

namespace Sys2Proof.Machine

/-! ### Records numbered from 1 -/

/-- The k-th entry of a list, numbered from 1. -/
def nth {α : Type} (l : List α) (k : Nat) (d : α) : α :=
  match k with
  | 0 => d
  | k + 1 => l.getD k d

/-- The list with its k-th entry, numbered from 1, replaced. -/
def setNth {α : Type} (l : List α) (k : Nat) (v : α) : List α :=
  match k with
  | 0 => l
  | k + 1 => l.set k v

/-- The cabin record of cabin k (R77). -/
def State.cabin (s : State) (k : Nat) : Cabin := nth s.bsq.cabins k .cold

/-- s with cabin k's record replaced. -/
def setCabin (k : Nat) (c : Cabin) (s : State) : State :=
  { s with bsq := { s.bsq with cabins := setNth s.bsq.cabins k c } }

/-- The node record of cabin k (R62). -/
def State.node (s : State) (k : Nat) : Node := nth s.cru.nodes k .cold

/-- s with cabin k's node record replaced. -/
def setNode (k : Nat) (n : Node) (s : State) : State :=
  { s with cru := { s.cru with nodes := setNth s.cru.nodes k n } }

/-- The pass record of cabin k (R10). -/
def State.passRecord (s : State) (k : Nat) : Option PlatformLine := nth s.ptr.passRecords k none

/-- s with cabin k's pass record replaced. -/
def setPassRecord (k : Nat) (r : Option PlatformLine) (s : State) : State :=
  { s with ptr := { s.ptr with passRecords := setNth s.ptr.passRecords k r } }

/-! ### Ports, banks, channels, groups, inputs -/

/-- A link port. -/
def State.port (s : State) : Port → PortState
  | .p1 => s.lkp.p1
  | .p2 => s.lkp.p2

/-- s with a link port replaced. -/
def setPort (p : Port) (q : PortState) (s : State) : State :=
  { s with lkp :=
    match p with
    | .p1 => { s.lkp with p1 := q }
    | .p2 => { s.lkp with p2 := q } }

/-- A port's presence timer runs and has reached its time (R152). -/
def PortState.presenceReached (q : PortState) : Bool :=
  match q.presence with
  | none => false
  | some t => decide (t.time * 1000 ≤ t.elapsed)

/-- A port's presence timer starts from 0 toward the table's presence time (R151, R152); an expiry that waits is then late. -/
def PortState.presenceStarted (q : PortState) : PortState :=
  { q with presence := some { elapsed := 0, time := q.presenceTime }, lateExpiry := q.lateExpiry || q.presenceReached }

/-- A port's presence timer stops (R151, R154); an expiry that waits is then late. -/
def PortState.presenceStopped (q : PortState) : PortState :=
  { q with presence := none, lateExpiry := q.lateExpiry || q.presenceReached }

/-- A fault bank. -/
def State.bank (s : State) : BankId → Bank
  | .rotation => s.fbu.rotation
  | .ring => s.fbu.ring
  | .wind => s.fbu.wind
  | .platform => s.fbu.platform
  | .link => s.fbu.link

/-- s with a fault bank replaced. -/
def setBank (b : BankId) (v : Bank) (s : State) : State :=
  { s with fbu :=
    match b with
    | .rotation => { s.fbu with rotation := v }
    | .ring => { s.fbu with ring := v }
    | .wind => { s.fbu with wind := v }
    | .platform => { s.fbu with platform := v }
    | .link => { s.fbu with link := v } }

/-- A channel record. -/
def ChannelRecs.get (c : ChannelRecs) : Channel → ChannelRec
  | .hub => c.hub
  | .platform => c.platform
  | .river => c.river

/-- The channel records with one replaced. -/
def ChannelRecs.put (c : ChannelRecs) (ch : Channel) (v : ChannelRec) : ChannelRecs :=
  match ch with
  | .hub => { c with hub := v }
  | .platform => { c with platform := v }
  | .river => { c with river := v }

/-- A channel record of the Wind Monitor (R117). -/
def State.channel (s : State) (ch : Channel) : ChannelRec := s.wmn.channels.get ch

/-- s with a channel record replaced. -/
def setChannel (ch : Channel) (v : ChannelRec) (s : State) : State :=
  { s with wmn := { s.wmn with channels := s.wmn.channels.put ch v } }

/-- An input group (R145). -/
def State.group (s : State) : GroupId → InputGroup
  | .g0 => s.pim.g0
  | .g1 => s.pim.g1

/-- s with an input group replaced. -/
def setGroup (g : GroupId) (v : InputGroup) (s : State) : State :=
  { s with pim :=
    match g with
    | .g0 => { s.pim with g0 := v }
    | .g1 => { s.pim with g1 := v } }

/-- Input i of 0..15 (R144). -/
def State.input (s : State) (i : Nat) : Input := s.pim.inputs.getD i .cold

/-- s with an input replaced. -/
def setInput (i : Nat) (v : Input) (s : State) : State :=
  { s with pim := { s.pim with inputs := s.pim.inputs.set i v } }

/-- A wind profile (R126). -/
def Wmn.profile (w : Wmn) : ProfileId → Profile
  | .p0 => w.profile0
  | .p1 => w.profile1

/-! ### Notices (R177) -/

/-- One port takes a notice: an idle transmitter with nothing waiting begins it; otherwise it joins the tail of the
outbox, or is dropped at a full outbox with the notice-lost flag set (R177). While a request is being handled the reply
slot is taken, so that a notice it produces stays behind its reply (R175). -/
def portNotice (n : Notice) (q : PortState) : PortState :=
  if q.transmitter = none ∧ q.reply = none ∧ q.outbox = [] then { q with transmitter := some (.notice n) }
  else if q.outbox.length < 16 then { q with outbox := q.outbox ++ [n] }
  else { q with noticeLost := true }

/-- A notice is placed in both ports' outboxes in the event that produces it (chapter 10, section 10.3). -/
def notify (n : Notice) (s : State) : State :=
  { s with lkp := { p1 := portNotice n s.lkp.p1, p2 := portNotice n s.lkp.p2 } }

/-! ### Forming the hold set (R136, R138) -/

/-- The entry with an identity, if the set holds it. -/
def State.hold (s : State) (id : HoldId) : Option HoldEntry := s.hlu.entries.find? fun e => e.id == id

/-- The list with an entry inserted: a replacement in place when the identity is there, appended otherwise (R136). -/
def placeEntry (e : HoldEntry) : List HoldEntry → List HoldEntry
  | [] => [e]
  | x :: xs => if x.id = e.id then e :: xs else x :: placeEntry e xs

/-- The set takes new entries: effective and other level are formed afresh, and LEVEL_CHANGED is sent when the effective
level differs from before (R138). -/
def holdForm (id : HoldId) (change : HoldChange) (level : Option Level) (entries : List HoldEntry) (s : State) : State :=
  let effective := highestLevel entries
  let other := highestLevel (entries.filter fun e => e.id != .boarding)
  let s' := { s with hlu := { entries := entries, effective := effective, other := other } }
  if effective = s.hlu.effective then s'
  else notify (.levelChanged effective s.hlu.effective id change level entries.length s.cfs.clock) s'

/-- The part of an insertion or replacement that the Hold Unit takes itself (R136). -/
def holdFormInsert (id : HoldId) (level : Level) (s : State) : State :=
  holdForm id (if (s.hold id).isSome then .replacement else .insertion) (some level)
    (placeEntry { id := id, level := level, time := s.cfs.clock } s.hlu.entries) s

/-- The part of a removal that the Hold Unit takes itself (R136). -/
def holdFormRemove (id : HoldId) (s : State) : State :=
  holdForm id .removal none (s.hlu.entries.filter fun e => e.id != id) s

end Sys2Proof.Machine
end

