-- ==== Sys2Proof/Machine/Rotation.lean ====
section
/-! DEFINITION. The Rotation Controller's own operations (chapter 2): outputs, limit-point list, brake timer, trip, speed
target, ramp and drive reference. The control update calls them in Machine/Update.lean. -/

namespace Sys2Proof.Machine

/-! ### Outputs (R18) -/

/-- Whether the brake output is energised, lifting the brake. -/
def brakeEnergised : Rotation → Bool
  | .braked => false
  | .releasing => true
  | .running => true
  | .standing => true
  | .tripped => false

/-- Whether the drive enable is on. -/
def driveEnabled : Rotation → Bool
  | .braked => false
  | .releasing => true
  | .running => true
  | .standing => true
  | .tripped => false

/-! ### Limit-point list (R31) -/

/-- The entry with an identity. -/
def State.limit (s : State) (o : LimitOrigin) : Option LimitPoint := s.roc.limits.find? fun e => e.origin == o

/-- Whether a cabin has a DOOR entry in the list. -/
def State.hasDoor (s : State) (k : Nat) : Bool := (s.limit (.door k)).isSome

/-- Whether an entry is a DOOR entry. -/
def LimitPoint.isDoor (e : LimitPoint) : Bool :=
  match e.origin with
  | .door _ => true
  | .move => false
  | .slow => false

/-- How many DOOR entries the list holds. -/
def State.doorCount (s : State) : Nat := (s.roc.limits.filter LimitPoint.isDoor).length

/-- Whether an insertion of cabin k's DOOR entry would be refused, as a fifth (R31). -/
def State.doorRefused (s : State) (k : Nat) : Bool := !s.hasDoor k && decide (4 ≤ s.doorCount)

/-- The list with an entry inserted: in place of the one with its identity, or appended (R31). -/
def placeLimit (e : LimitPoint) : List LimitPoint → List LimitPoint
  | [] => [e]
  | x :: xs => if x.origin = e.origin then e :: xs else x :: placeLimit e xs

/-- An insertion, which clears the overrun-reported flag (R31). -/
def limitInsert (o : LimitOrigin) (line limitSpeed : Nat) (margin : Bool) (remaining : Int) (s : State) : State :=
  { s with roc := { s.roc with
      limits := placeLimit
        { origin := o, line := line, limitSpeed := limitSpeed, margin := margin, remaining := remaining,
          overrunReported := false } s.roc.limits } }

/-- The overrun-reported flag of the entry with an identity is set (R37). -/
def markOverrun (o : LimitOrigin) (s : State) : State :=
  { s with roc := { s.roc with
      limits := s.roc.limits.map fun e => if e.origin = o then { e with overrunReported := true } else e } }

/-- A removal; an absent identity changes nothing (R31). -/
def limitRemove (o : LimitOrigin) (s : State) : State :=
  { s with roc := { s.roc with limits := s.roc.limits.filter fun e => e.origin != o } }

/-- Forward distance from the present wheel angle to a line (R7, R32). -/
def State.ahead (s : State) (line : Nat) : Nat := s.cfs.geometry.forward s.ptr.angle line

/-! ### Brake (R21) -/

/-- The brake output is de-energised from energised: the flag is cleared and the brake-set timer starts from 0; a BRAKE_SET
found present counts as arriving at that moment (R18, R21). -/
def brakeSetStart (r : Roc) : Roc :=
  if r.brakeSet then { r with brakeConfirmed := true, brakeSetTimer := none }
  else { r with brakeConfirmed := false, brakeSetTimer := some 0 }

/-- BRAKE_SET arrives: while the timer runs it stops and the flag is set; with no timer the flag is set when the brake
output is de-energised and left when it is energised (R21). -/
def brakeSetArrives (r : Roc) : Roc :=
  if r.brakeSetTimer.isSome then { r with brakeSetTimer := none, brakeConfirmed := true }
  else if brakeEnergised r.rotation then r
  else { r with brakeConfirmed := true }

/-- BRAKE_RELEASED arrives: in RELEASING, while the release timer runs, the wheel enters RUNNING and the tracking grace
starts (R22); in any other state it changes nothing (R18). -/
def brakeReleasedArrives (r : Roc) : Roc :=
  if r.rotation = .releasing ∧ r.releaseTimer.isSome then
    { r with releaseTimer := none, rotation := .running, grace := some 0 }
  else r

/-- Entry into BRAKED from RELEASING or STANDING: brake output de-energised, drive off, reference 0 in that event, and the
tracking counter held at 0 (R21, R22, R24, R36, R38). -/
def enterBraked (r : Roc) : Roc :=
  brakeSetStart { r with rotation := .braked, releaseTimer := none, standTimer := none, vCmd := 0, driveRef := 0, tracking := 0 }

/-! ### Trip (R25) -/

/-- The Rotation Controller after a trip: v_cmd and reference 0, release and stand timers, tracking counter, grace and
trial step ended, limit points and run-enable kept; the brake-set timer starts when the brake output was energised, and
goes on as it was otherwise (R21, R25). -/
def tripRoc (r : Roc) : Roc :=
  let t := { r with
    rotation := .tripped, vCmd := 0, driveRef := 0, releaseTimer := none, standTimer := none, tracking := 0,
    grace := none, trialStep := false, waitingDriveReady := false }
  if brakeEnergised r.rotation then brakeSetStart t else t

/-- The trip, with its notice; a ROC already TRIPPED is unchanged and sends none (R25). -/
def trip (s : State) : State :=
  if s.roc.rotation = .tripped then s
  else notify (.trip s.roc.rotation s.roc.vCmd s.ptr.speed s.ptr.angle s.ptr.referenced s.cfs.clock)
    { s with roc := tripRoc s.roc }

/-! ### Speed target (R28, R29, R30, R33) -/

/-- Level cap of a hold level (R29). -/
def Speeds.levelCap (sp : Speeds) : Level → Nat
  | .none => sp.cruise
  | .slow => sp.capSlow
  | .noBoard => sp.capNoBoard
  | .unloadOnly => sp.capUnloadOnly
  | .stop => 0
  | .park => 0

/-- Whether slot A holds a STOP_CABIN move in ARRIVED (R33). -/
def State.arrivedStop (s : State) : Bool :=
  match s.mvu.slotA with
  | none => false
  | some m =>
    match m.kind with
    | .stopCabin _ => m.status == .arrived
    | .advance _ => false

/-- Remaining distance d_p of an entry, in mm (R33). -/
def LimitPoint.distance (e : LimitPoint) (u : Nat) : Nat := e.remaining.toNat * u / 1000

/-- Usable distance d' of an entry at a commanded speed (R33). -/
def State.usable (s : State) (v : Nat) (e : LimitPoint) : Nat :=
  e.distance s.cfs.geometry.u - ceilDiv v 20000 - (if e.margin then s.cfs.speeds.margin else 0)

/-- Curve limit of an entry at a commanded speed, in mm/s (R33). -/
def State.curveLimit (s : State) (v : Nat) (e : LimitPoint) : Nat :=
  if e.origin = .move ∧ s.arrivedStop then e.limitSpeed
  else isqrt (e.limitSpeed * e.limitSpeed + 2 * s.roc.aEff * s.usable v e)

/-- The terms of the speed target in the order of R28, those that set no limit left out. -/
def State.targetTerms (s : State) (v : Nat) : List (Nat × LimitingTerm) :=
  [(if s.roc.runEnable then s.cfs.speeds.cruise else 0, .runOff),
   (s.cfs.speeds.levelCap s.hlu.effective, .level)]
  ++ (if s.ptr.referenced then [] else [(s.cfs.speeds.board, .unreferenced)])
  ++ (if s.roc.limits.any LimitPoint.isDoor then [(s.cfs.speeds.board, .platform)] else [])
  ++ s.roc.limits.map fun e => (s.curveLimit v e, .curve e.origin)

/-- The lesser of two terms, the first when they are equal. -/
def lesserTerm (a b : Nat × LimitingTerm) : Nat × LimitingTerm := if a.1 ≤ b.1 then a else b

/-- The least of a list of terms, and the first term in the list's order that has that value (R28). -/
def leastTerm : List (Nat × LimitingTerm) → Nat × LimitingTerm
  | [] => (0, .held)
  | [t] => t
  | t :: ts => lesserTerm t (leastTerm ts)

/-- The speed target and its limiting term at a commanded speed (R28). -/
def State.speedTarget (s : State) (v : Nat) : Nat × LimitingTerm := leastTerm (s.targetTerms v)

/-! ### Ramp and drive reference (R34, R36) -/

/-- One bounded step of v_cmd toward a target in mm/s (R34). -/
def rampStep (v target aAcc aEff : Nat) : Nat :=
  if v < target * 1000 then min (target * 1000) (v + aAcc * 50)
  else max (target * 1000) (v - aEff * 50)

/-- The drive reference word of a commanded speed (R36). -/
def driveWord (v : Nat) : Nat := v * 65535 / 600000

end Sys2Proof.Machine
end

