-- ==== Sys2Proof/Machine/Holds.lean ====
section
/-! DEFINITION. A change of the hold set whole (R136 to R139): the Hold Unit forms the levels, hands the change to the
Rotation Controller (R25), the Move Unit (R51, R58) and the Boarding Sequencer (R98). The Move Unit's part at PARK, at
decommission and at a trial abort stands here too, since a hold change brings it. -/

namespace Sys2Proof.Machine

/-! ### Move slots (R44, R53) -/

/-- DONE, CANCELLED and ABORTED are final (R44). -/
def MoveStatus.isFinal : MoveStatus → Bool
  | .pending => false
  | .active => false
  | .arrived => false
  | .done => true
  | .cancelled => true
  | .aborted => true

/-- The record in a slot. -/
def State.slot (s : State) : Slot → Option Move
  | .a => s.mvu.slotA
  | .b => s.mvu.slotB

/-- s with a slot's record replaced. -/
def setSlot (sl : Slot) (m : Option Move) (s : State) : State :=
  { s with mvu :=
    match sl with
    | .a => { s.mvu with slotA := m }
    | .b => { s.mvu with slotB := m } }

/-- Whether a move occupies slot A: ACTIVE or ARRIVED (R44). -/
def Move.occupiesA (m : Move) : Bool := m.status == .active || m.status == .arrived

/-- Whether slot A is occupied. -/
def State.occupiedA (s : State) : Bool :=
  match s.mvu.slotA with
  | none => false
  | some m => m.occupiesA

/-- Whether slot B is occupied: PENDING (R44). -/
def State.pendingB (s : State) : Bool :=
  match s.mvu.slotB with
  | none => false
  | some m => m.status == .pending

/-- The Boarding Sequencer's record of its move after a status change handed over: a final status ends it (R94). -/
def boardingMoveAfter (b : Option BoardingMove) (m : Move) : Option BoardingMove :=
  match b with
  | none => none
  | some b =>
    if m.origin = .boarding ∧ b.number = m.number then
      if m.status.isFinal then none else some { b with status := m.status }
    else some b

/-- A status change of a slot: MOVE_STATUS with the record as it stands, and the hand-over to the Boarding Sequencer of a
move of origin BOARDING (R53). -/
def moveChanged (sl : Slot) (m : Option Move) (s : State) : State :=
  let s := notify (.moveStatus sl m) (setSlot sl m s)
  match m with
  | none => s
  | some m => { s with bsq := { s.bsq with boardingMove := boardingMoveAfter s.bsq.boardingMove m } }

/-- The moves end at PARK or at decommission: slot A's is ABORTED with the cause and its MOVE entry goes, slot B's is
CANCELLED, slot A's notice first (R51, R52, R53). -/
def endMoves (cause : MoveCause) (s : State) : State :=
  let s :=
    match s.mvu.slotA with
    | none => s
    | some m =>
      if m.occupiesA then moveChanged .a (some { m with status := .aborted, cause := some cause }) (limitRemove .move s)
      else s
  match s.mvu.slotB with
  | none => s
  | some m => if m.status = .pending then moveChanged .b (some { m with status := .cancelled }) s else s

/-- A measuring trial is aborted with a cause; TRIAL_DONE is sent, and the trial step goes on (R58). -/
def abortTrial (cause : TrialAbort) (s : State) : State :=
  if s.mvu.trial.status = .measuring then
    let t := { s.mvu.trial with
      status := .aborted, abortCause := some cause, aEffAfter := some s.roc.aEff, endTime := some s.cfs.clock }
    notify (.trialDone t) { s with mvu := { s.mvu with trial := t } }
  else s

/-! ### Hand-over of a change (R139) -/

/-- The Move Unit takes a changed effective level (R51, R58). -/
def moveUnitLevel (previous : Level) (s : State) : State :=
  if s.hlu.effective = previous then s
  else
    match s.hlu.effective with
    | .park => abortTrial .level (endMoves .holdPark s)
    | .stop => abortTrial .level s
    | .unloadOnly => s
    | .noBoard => s
    | .slow => s
    | .none => s

/-- The hand-over to the Rotation Controller, which trips when the level has become PARK (R25), and then to the Move
Unit (R139). previous is the effective level before the change. -/
def handToWheel (previous : Level) (s : State) : State :=
  moveUnitLevel previous (if s.hlu.effective = .park ∧ previous ≠ .park then trip s else s)

/-! ### Bring-home (R98) -/

/-- Whether a cabin is occupied: a manifest, or a load above the empty threshold (R78). -/
def State.occupied (s : State) (k : Nat) : Bool :=
  (s.cabin k).manifest.isSome || decide (s.cfs.boarding.empty < (s.node k).load)

/-- Whether any cabin 1..N is occupied. -/
def State.anyOccupied (s : State) : Bool := s.cfs.geometry.cabins.any s.occupied

/-- What the bring-home judgement calls for: insert the entry, remove it, or leave the set (R98). -/
inductive BringHome where
  | insert
  | remove
  | leave
  deriving DecidableEq, Repr

/-- The bring-home judgement (R98). -/
def State.bringHome (s : State) : BringHome :=
  if s.cfs.device = .service then
    if s.hlu.other = .unloadOnly then
      if s.anyOccupied || s.roc.limits.any LimitPoint.isDoor || (s.hold .boarding).isSome then .leave else .insert
    else if (s.hold .boarding).isSome then .remove
    else .leave
  else .leave

/-- The Boarding Sequencer takes the hand-over of a change and judges its bring-home entry. A change of its own is taken by
the Hold Unit at once, and its hand-overs follow after the Boarding Sequencer has finished; the judgement at that second
hand-over finds nothing more to do, since the other level is the same (R98, R139; log 31). -/
def bringHomeHandOver (s : State) : State :=
  match s.bringHome with
  | .insert =>
    handToWheel s.hlu.effective
      (notify (.bringHomeComplete s.ptr.angle s.cfs.clock) (holdFormInsert .boarding .stop s))
  | .remove => handToWheel s.hlu.effective (holdFormRemove .boarding s)
  | .leave => s

/-- The bring-home judgement at an event that is no hand-over of the Hold Unit: the hand-overs of the change come before
the notice (R98, R139; log 31). -/
def bringHomeJudge (s : State) : State :=
  match s.bringHome with
  | .insert =>
    notify (.bringHomeComplete s.ptr.angle s.cfs.clock) (handToWheel s.hlu.effective (holdFormInsert .boarding .stop s))
  | .remove => handToWheel s.hlu.effective (holdFormRemove .boarding s)
  | .leave => s

/-! ### The three operations on the set (R136) -/

/-- A removal, whole; an absent identity leaves the set as it was (R136). -/
def holdRemove (id : HoldId) (s : State) : State :=
  if (s.hold id).isSome then bringHomeHandOver (handToWheel s.hlu.effective (holdFormRemove id s)) else s

/-- An insertion or replacement, whole; an owner that would insert at NONE removes instead (R136). -/
def holdInsert (id : HoldId) (level : Level) (s : State) : State :=
  if level = .none then holdRemove id s
  else bringHomeHandOver (handToWheel s.hlu.effective (holdFormInsert id level s))

end Sys2Proof.Machine
end

