-- ==== Sys2Proof/Machine/Cabins.lean ====
section
/-! DEFINITION. What the Boarding Sequencer does with one cabin's record outside its pass: the SLOW limit point (R81), the
service states (R95 to R97), and the balance sums with their hold entry (R111 to R115). -/

namespace Sys2Proof.Machine

/-! ### SLOW limit point (R81) -/

/-- Whether the SLOW target will have its door released: in service or suspect, or occupied (R81). -/
def State.slowWanted (s : State) (k : Nat) : Bool := (s.cabin k).service != .outOfService || s.occupied k

/-- The SLOW entry is placed on cabin k's D line (R81). -/
def slowInsert (k : Nat) (s : State) : State :=
  let line := s.cfs.geometry.lineAngle k s.cfs.zones.d
  limitInsert .slow line s.cfs.speeds.board false (s.ahead line) s

/-- Whether a cabin may be chosen as the SLOW target: its pass record is NONE or A (R81). -/
def State.beforeD (s : State) (k : Nat) : Bool := decide (lineRank (s.passRecord k) ≤ 1)

/-- Until the SLOW target crosses D, the entry's presence is made to match; after that the entry stays where it is, also
when the target has left the window before the next A crossing (R81). -/
def slowJudge (s : State) : State :=
  match s.bsq.slowTarget with
  | none => s
  | some k =>
    if s.bsq.slowCrossed then s
    else if s.slowWanted k then (if (s.limit .slow).isSome then s else slowInsert k s)
    else limitRemove .slow s

/-- The nearer of two cabins by forward distance to its own D line, the first when they are equal. -/
def nearerD (s : State) (k : Nat) (best : Option Nat) : Option Nat :=
  match best with
  | none => some k
  | some b =>
    if s.ahead (s.cfs.geometry.lineAngle k s.cfs.zones.d) ≤ s.ahead (s.cfs.geometry.lineAngle b s.cfs.zones.d) then some k
    else some b

/-- The next cabin to reach its D line, among those whose pass record is NONE or A (R81). -/
def State.nextRelease (s : State) : Option Nat :=
  (s.cfs.geometry.cabins.filter s.beforeD).foldr (nearerD s) none

/-- The SLOW target is chosen afresh, and its entry inserted or removed (R81). -/
def slowChoose (s : State) : State :=
  let t := s.nextRelease
  let s := { s with bsq := { s.bsq with slowTarget := t, slowCrossed := false } }
  match t with
  | none => limitRemove .slow s
  | some k => if s.slowWanted k then slowInsert k s else limitRemove .slow s

/-- What follows a change of loads, manifests or service states made since before: the SLOW entry is judged (R81), and so
is the bring-home entry when whether any cabin is occupied has changed (R98). -/
def settleCabins (before s : State) : State :=
  let s := slowJudge s
  if s.anyOccupied = before.anyOccupied then s else bringHomeJudge s

/-! ### Service states (R95, R96, R97) -/

/-- The service state and count that a cabin has after a CABIN-scope fault, with k the table's K (R95, log 14). -/
def suspectAfter (k : Nat) (c : Cabin) : Cabin :=
  let count := min 15 (c.suspectCount + 1)
  { c with
    cleanPass := false
    suspectCount := count
    service := if c.service = .outOfService ∨ k ≤ count then .outOfService else .suspect }

/-- A cabin record replaced, with CABIN_SERVICE when its service state has changed (R95, R96, R97). -/
def serviceChange (k : Nat) (c : Cabin) (cause : ServiceCause) (s : State) : State :=
  let old := (s.cabin k).service
  let s := setCabin k c s
  slowJudge (if c.service = old then s else notify (.cabinService k c.service c.suspectCount cause) s)

/-- The Fault Bank Unit hands over a CABIN-scope fault of cabin k (R95, R165). -/
def cabinFault (code : FaultCode) (k : Nat) (s : State) : State :=
  serviceChange k (suspectAfter s.cfs.boarding.k (s.cabin k)) (.fault code) s

/-! ### Balance (R111 to R115) -/

/-- The pair (C_k, S_k) of the mounting-angle table, (0, 0) while it is NOT_BUILT (R111). -/
def State.anglesOf (s : State) (k : Nat) : Int × Int :=
  match s.bsq.angles with
  | none => (0, 0)
  | some t => nth t k (0, 0)

/-- X, the sum of L_k C_k over cabins 1..N (R112). -/
def State.formX (s : State) : Int :=
  s.cfs.geometry.cabins.foldl (fun x k => x + ((s.node k).load : Int) * (s.anglesOf k).1) 0

/-- Y, the sum of L_k S_k over cabins 1..N (R112). -/
def State.formY (s : State) : Int :=
  s.cfs.geometry.cabins.foldl (fun y k => y + ((s.node k).load : Int) * (s.anglesOf k).2) 0

/-- A threshold in squared form: (kg times 4,096) squared (R113). -/
def squaredThreshold (kg : Nat) : Int := ((kg * 4096 * (kg * 4096) : Nat) : Int)

/-- The balance entry is judged on the sums as they stand (R115). -/
def balanceJudge (s : State) : State :=
  if (s.hold .balance).isSome then
    if s.bsq.sumQ ≤ squaredThreshold s.cfs.balance.clear then holdRemove .balance s else s
  else if squaredThreshold s.cfs.balance.warn < s.bsq.sumQ then holdInsert .balance .slow s
  else s

/-- The balance sums are formed afresh and the balance entry is judged (R112, R115). -/
def formSums (s : State) : State :=
  let x := s.formX
  let y := s.formY
  balanceJudge { s with bsq := { s.bsq with sumX := x, sumY := y, sumQ := x * x + y * y } }

/-- The balance admission check of mass m in cabin k (R114). -/
def State.balanceAdmits (s : State) (m k : Nat) : Bool :=
  let x := s.bsq.sumX + (m : Int) * (s.anglesOf k).1
  let y := s.bsq.sumY + (m : Int) * (s.anglesOf k).2
  let q := x * x + y * y
  decide (q ≤ squaredThreshold s.cfs.balance.lim) || decide (q ≤ s.bsq.sumQ)

/-- A party's mass: the declared mass, or the party size times the per-person mass of the table (R102). -/
def State.partyMass (s : State) (g : Group) : Nat :=
  match g.declared with
  | some m => m
  | none => g.size * s.cfs.boarding.perPerson

end Sys2Proof.Machine
end

