-- ==== Sys2Proof/Machine/Faults.lean ====
section
/-! DEFINITION. A report at the Fault Bank Unit (R155 to R165): mask, counter and threshold, logging, pending flag and hold
level, notices, the hand-over of a CABIN fault, and the bank's FAULT entry. -/

namespace Sys2Proof.Machine

/-- Whether a code's detection is masked in its bank (R158). -/
def Bank.masks (b : Bank) (c : FaultCode) : Bool := b.mask.getLsbD (c.number - 1)

/-- The record, overflow flag and disposition of a report (R161). -/
def Bank.logged (b : Bank) (r : FaultRecord) : Bank × Disposition :=
  match b.record with
  | none => ({ b with record := some r }, .written)
  | some old =>
    if old.code.cls.code < r.code.cls.code then ({ b with record := some r, overflow := true }, .replaced)
    else ({ b with overflow := true }, .notWritten)

/-- The counter after a report: a CORRECTABLE or DEFERRED one raises it, saturating at 4,095 (R159). -/
def Bank.counted (b : Bank) (c : FaultCode) : Bank :=
  if c.cls = .uncorrectable then b else { b with counter := min 4095 (b.counter + 1) }

/-- Whether a counted report brings the counter to its threshold with the flag clear; b is the bank after the rise, or
at 4,095 (R159; log 46). -/
def Bank.thresholdDue (b : Bank) (c : FaultCode) : Bool :=
  c.cls != .uncorrectable && b.threshold != 0 && decide (b.threshold ≤ b.counter) && !b.thresholdReached

/-- The hold level after a report: the code's action for a bank not pending (R163), PARK for one already pending (R164). -/
def Bank.held (b : Bank) (c : FaultCode) : Option FaultAction :=
  match c.action with
  | none => b.hold
  | some a => if b.hold.isSome then some .park else some a

/-- Whether FAULT_LOGGED is sent for a code (R162). -/
def Bank.notifies (b : Bank) (c : FaultCode) : Bool :=
  match c.cls with
  | .uncorrectable => true
  | .deferred => b.noticeDeferred
  | .correctable => b.noticeCorrectable

/-- The bank after steps 2 to 4 of a report (R156), and the report's disposition. -/
def Bank.reported (b : Bank) (r : FaultRecord) : Bank × Disposition :=
  let b := b.counted r.code
  let (l, disposition) := ({ b with thresholdReached := b.thresholdReached || b.thresholdDue r.code } : Bank).logged r
  ({ l with hold := l.held r.code }, disposition)

/-- A report of a code with its subject, taken whole (R156). -/
def report (code : FaultCode) (subject : Option Nat) (s : State) : State :=
  let id := code.bank
  let b := s.bank id
  if b.masks code then s
  else
    let r : FaultRecord :=
      { code := code, subject := subject, angle := s.ptr.angle, time := s.cfs.clock, beforeRestart := false }
    let (n, disposition) := b.reported r
    let s := setBank id n s
    let s :=
      if n.notifies code then
        notify (.faultLogged code subject r.angle r.time disposition n.counter n.overflow n.hold) s
      else s
    let s :=
      if (b.counted code).thresholdDue code then
        notify (.threshold id n.counter n.threshold code subject s.cfs.clock) s
      else s
    let s :=
      match code.scope, subject with
      | .cabin, some k => cabinFault code k s
      | _, _ => s
    match n.hold with
    | none => s
    | some a => if n.hold = b.hold then s else holdInsert (.fault id) a.level s

end Sys2Proof.Machine
end

