-- ==== Sys2Proof/Machine/Inputs.lean ====
section
/-! DEFINITION. The Platform Input Monitor (chapter 8, R144 to R150): input filters, match state, factor flag and the
INPUTS entry of a group. -/

namespace Sys2Proof.Machine

/-! ### Filters (R144) -/

/-- An input's raw value changes: its filter timer starts, restarts or stops (R144). -/
def Input.rawChanged (i : Input) (value : Bool) : Input :=
  if i.raw = value then i else { i with raw := value, timer := if value = i.filtered then none else some 0 }

/-- An input whose filter timer has reached its time (R144). -/
def Input.taken (i : Input) : Input := { i with filtered := i.raw, timer := none }

/-- The group an input belongs to. -/
def groupOfInput (i : Nat) : GroupId := if i < 8 then .g0 else .g1

/-- The filtered values of a group as one mask, bit j for its j-th input (R146), which is also the byte that INPUT_FACTOR sends
(this model's choice: log 17). -/
def State.filteredMask (s : State) (g : GroupId) : BitVec 8 :=
  BitVec.ofNat 8 (flagBits ((List.range 8).map fun j => (s.input (8 * g.number + j)).filtered))

/-- The match state that a group's filtered values give (R146). -/
def InputGroup.matchOf (g : InputGroup) (filtered : BitVec 8) : Bool := (filtered ^^^ g.expected) &&& g.select == 0

/-! ### The INPUTS entry (R147) -/

/-- A group calls for its entry (R147). -/
def InputGroup.calls (g : InputGroup) : Bool := g.level != .none && (!g.isMatch || g.factor)

/-- A group's entry is judged; one already at the right level is left as it stands (R147). -/
def judgeInputs (g : GroupId) (s : State) : State :=
  let v := s.group g
  if v.calls then
    match s.hold (.inputs g) with
    | none => holdInsert (.inputs g) v.level s
    | some e => if e.level = v.level then s else holdInsert (.inputs g) v.level s
  else holdRemove (.inputs g) s

/-! ### The match state (R146) -/

/-- The passage from MATCH to MISMATCH: factor flag, INPUT_FACTOR if enabled, and the report (R146). -/
def groupDeparts (g : GroupId) (cause : InputCause) (s : State) : State :=
  let v := { s.group g with isMatch := false, factor := true }
  let s := setGroup g v s
  let s :=
    if v.noticeEnable then
      notify (.inputFactor g cause (s.filteredMask g) v.select v.expected v.level s.cfs.clock) s
    else s
  report .inputMismatch (some g.number) s

/-- A group's match state is formed afresh, without the entry's judgement (R146). -/
def formMatch (g : GroupId) (cause : InputCause) (s : State) : State :=
  let v := s.group g
  let m := v.matchOf (s.filteredMask g)
  if m then setGroup g { v with isMatch := true } s
  else if v.isMatch then groupDeparts g cause s
  else s

/-- A group's match state is formed afresh and its entry judged (R146, R147). -/
def reformGroup (g : GroupId) (cause : InputCause) (s : State) : State := judgeInputs g (formMatch g cause s)

/-- An input's raw value changes (R144). -/
def inputRaw (i : Nat) (value : Bool) (s : State) : State := setInput i ((s.input i).rawChanged value) s

/-- The input change event: the filter timer reaches 20 ms (R144, R146). -/
def inputChange (i : Nat) (s : State) : State :=
  if (s.input i).timer.isSome then
    reformGroup (groupOfInput i) (.input i) (setInput i (s.input i).taken s)
  else s

/-! ### Writes, clears and resets (R148, R149, R150) -/

/-- A group's table entry after an accepted write, its match state and factor flag as before (R149). -/
def InputGroup.written (v : InputGroup) (select expected : BitVec 8) (level : Level) (noticeEnable : Bool) : InputGroup :=
  { v with select := select, expected := expected, level := level, noticeEnable := noticeEnable }

/-- An accepted write of a group's entry: the match state is formed when select or expected changed, and the entry is then
judged once when they or the level changed (R149). -/
def inputsWrite (g : GroupId) (select expected : BitVec 8) (level : Level) (noticeEnable : Bool) (s : State) : State :=
  let v := s.group g
  let s := setGroup g (v.written select expected level noticeEnable) s
  if v.select ≠ select ∨ v.expected ≠ expected then reformGroup g .write s
  else if v.level ≠ level then judgeInputs g s
  else s

/-- FACTOR_CLEAR's effect (R148). -/
def factorClear (g : GroupId) (s : State) : State := judgeInputs g (setGroup g { s.group g with factor := false } s)

/-- At the end of a reset a group is formed with its flag clear and as if it matched before (R150). -/
def groupResetEnd (g : GroupId) (s : State) : State :=
  reformGroup g .reset (setGroup g { s.group g with isMatch := true, factor := false } s)

/-- The end of a reset at the Platform Input Monitor: filtered values taken, timers stopped, the groups formed (R144,
R150). -/
def inputsResetEnd (s : State) : State :=
  groupResetEnd .g1 (groupResetEnd .g0
    { s with pim := { s.pim with inputs := s.pim.inputs.map Input.taken } })

end Sys2Proof.Machine
end

