-- ==== Sys2Proof/Machine/Moves.lean ====
section
/-! DEFINITION. The Move Unit (chapter 3): submission, activation, promotion, cancel and resume of positioning moves, and
the deceleration trial. The judgement at standstill, which may change a cabin to loading, is in Machine/Update.lean. -/

namespace Sys2Proof.Machine

/-- The reasons of a refusal (R176). -/
inductive Reason where
  | unknownKind
  | badLength
  | badField
  | notPermitted
  | wrongState
  | full
  | unknownId
  | duplicateId
  | configInvalid
  deriving DecidableEq, Repr

/-- Value of a reason (R176). -/
def Reason.code : Reason → Nat
  | .unknownKind => 1
  | .badLength => 2
  | .badField => 3
  | .notPermitted => 4
  | .wrongState => 5
  | .full => 6
  | .unknownId => 7
  | .duplicateId => 8
  | .configInvalid => 9

/-! ### Activation and promotion (R46, R47) -/

/-- The target of a move counted from the present wheel angle (R46). -/
def State.moveTarget (s : State) : MoveKind → Nat
  | .stopCabin k => s.cfs.geometry.lineAngle k 0
  | .advance n => (s.ptr.angle + n * s.cfs.geometry.p) % s.cfs.geometry.cpr

/-- The remaining travel of a move at its activation (R46). -/
def State.moveRemaining (s : State) : MoveKind → Int
  | .stopCabin k =>
    let position := s.cfs.geometry.position s.ptr.angle k
    if 0 ≤ position ∧ position ≤ (s.cfs.boarding.tStop : Int) then -position
    else (s.ahead (s.cfs.geometry.lineAngle k 0) : Int)
  | .advance n => ((n * s.cfs.geometry.p : Nat) : Int)

/-- A move enters slot A as ACTIVE: its MOVE entry is inserted and its status change reported (R46, R53). -/
def activate (m : Move) (s : State) : State :=
  let target := s.moveTarget m.kind
  moveChanged .a (some { m with status := .active, target := target })
    (limitInsert .move target 0 false (s.moveRemaining m.kind) s)

/-- A PENDING move in slot B moves to slot A, and slot B becomes EMPTY (R47). -/
def promote (s : State) : State :=
  match s.mvu.slotB with
  | none => s
  | some m => if m.status = .pending then moveChanged .b none (activate m s) else s

/-- Slot A becomes final with a record: its MOVE entry is removed, the change reported, and slot B promoted (R47). -/
def finishA (m : Move) (s : State) : State := promote (moveChanged .a (some m) (limitRemove .move s))

/-! ### Submission (R44, R45) -/

/-- The move number counter after it has given a number: from 65,535 back to 1 (R44). -/
def nextMoveNumber (n : Nat) : Nat := if n = 65535 then 1 else n + 1

/-- What a submission comes to. -/
inductive Submission where
  | refused (reason : Reason) (field : Nat)
  | accepted (slot : Slot) (move : Move) (s : State)
  deriving DecidableEq, Repr

/-- The cabin or count of a move kind lies in 1..N (R45 step 2). -/
def Geometry.admitsMove (g : Geometry) (kind : MoveKind) : Bool := decide (1 ≤ kind.codes.2 ∧ kind.codes.2 ≤ g.n)

/-- A submission judged from step 2 of R45 on; the counter's number is taken by an accepted move (R44). -/
def submitMove (kind : MoveKind) (origin : MoveOrigin) (s : State) : Submission :=
  if !s.cfs.geometry.admitsMove kind then .refused .badField 2
  else if s.cfs.device = .config ∨ s.ptr.referenced = false ∨ s.hlu.effective = .park ∨ s.roc.trialStep then
    .refused .wrongState 0
  else
    let m : Move :=
      { number := s.mvu.nextNumber, kind := kind, origin := origin, status := .pending, target := s.moveTarget kind,
        arrivalError := none, cause := none }
    let counted := { s with mvu := { s.mvu with nextNumber := nextMoveNumber s.mvu.nextNumber } }
    if !s.occupiedA then .accepted .a { m with status := .active } (activate m counted)
    else if !s.pendingB then .accepted .b m (moveChanged .b (some m) counted)
    else .refused .full 0

/-! ### Cancel and resume (R49, R50) -/

/-- The record with a move number in a slot. -/
def State.numbered (s : State) (sl : Slot) (number : Nat) : Option Move :=
  match s.slot sl with
  | none => none
  | some m => if m.number = number then some m else none

/-- What a request on a move number comes to. -/
inductive MoveAnswer where
  | refused (reason : Reason)
  | done (s : State)
  deriving DecidableEq, Repr

/-- MOVE_CANCEL by number (R50). -/
def cancelMove (number : Nat) (s : State) : MoveAnswer :=
  match s.numbered .a number with
  | some m => if m.occupiesA then .done (finishA { m with status := .cancelled } s) else .refused .wrongState
  | none =>
    match s.numbered .b number with
    | some m =>
      if m.status = .pending then .done (moveChanged .b (some { m with status := .cancelled }) s)
      else .refused .wrongState
    | none => .refused .unknownId

/-- MOVE_RESUME by number (R49). -/
def resumeMove (number : Nat) (s : State) : MoveAnswer :=
  match s.numbered .a number with
  | some m => if m.status = .arrived then .done (finishA { m with status := .done } s) else .refused .wrongState
  | none => if (s.numbered .b number).isSome then .refused .wrongState else .refused .unknownId

/-- The state a move answer leaves. -/
def MoveAnswer.state (a : MoveAnswer) (s : State) : State :=
  match a with
  | .refused _ => s
  | .done t => t

/-- The Boarding Sequencer gives up its move for cabin k: cancelled while ACTIVE or PENDING, resumed when ARRIVED (R94). -/
def giveUpMove (k : Nat) (s : State) : State :=
  match s.bsq.boardingMove with
  | none => s
  | some b =>
    if b.cabin = k then
      if b.status = .arrived then (resumeMove b.number s).state s else (cancelMove b.number s).state s
    else s

/-! ### Deceleration trial (R54 to R57) -/

/-- The conditions of DECEL_TRIAL_START (R55). -/
def State.trialAllowed (s : State) : Bool :=
  s.roc.rotation == .running && !s.roc.trialStep && decide (100 ≤ s.ptr.speed) && !s.roc.limits.any LimitPoint.isDoor
    && !s.occupiedA && (s.hlu.effective == .none || s.hlu.effective == .slow)

/-- The trial starts: a new record, and the trial step with v_cmd and reference at 0 and the tracking counter held at 0
(R38, R39, R55). -/
def startTrial (s : State) : State :=
  { s with
    mvu := { s.mvu with trial :=
      { Trial.cold with
        status := .measuring, v0 := some s.ptr.speed, counts := some 0, startTime := some s.cfs.clock } }
    roc := { s.roc with vCmd := 0, driveRef := 0, trialStep := true, tracking := 0 } }

/-- Stopping distance of a trial in mm (R57 step 1). -/
def trialDistance (counts : Int) (u : Nat) : Nat := counts.toNat * u / 1000

/-- Measured deceleration of a trial (R57 step 2). -/
def trialMeasured (v0 : Int) (d : Nat) : Nat :=
  if d = 0 then 65535 else min 65535 (v0.toNat * v0.toNat / (2 * d))

/-- Candidate deceleration of a trial (R57 step 3). -/
def trialCandidate (aMeas : Nat) : Nat := aMeas * 7 / 8

/-- The Rotation Controller takes an offered a_eff when it lies within a_min..a_cfg (R35). -/
def offerDecel (sp : Speeds) (offered aEff : Nat) : Nat :=
  if sp.aMin ≤ offered ∧ offered ≤ sp.aCfg then offered else aEff

/-- The trial completes at standstill: measurements, the offer to the Rotation Controller or DECEL_INSUFFICIENT, and
TRIAL_DONE after the record has become DONE (R35, R57; the fault's notices before TRIAL_DONE: log 11). -/
def completeTrial (s : State) : State :=
  let t := s.mvu.trial
  let d := trialDistance (t.counts.getD 0) s.cfs.geometry.u
  let aMeas := trialMeasured (t.v0.getD 0) d
  let aCand := trialCandidate aMeas
  let accepted := decide (s.cfs.speeds.aMin ≤ aCand)
  let aEff := if accepted then offerDecel s.cfs.speeds (min s.cfs.speeds.aCfg aCand) s.roc.aEff else s.roc.aEff
  let t' := { t with
    status := .done, distance := some d, aMeas := some aMeas, aCand := some aCand
    outcome := some (if accepted then .accepted else .insufficient), aEffAfter := some aEff
    endTime := some s.cfs.clock }
  let s := { s with mvu := { s.mvu with trial := t' }, roc := { s.roc with aEff := aEff } }
  notify (.trialDone t') (if accepted then s else report .decelInsufficient none s)

end Sys2Proof.Machine
end

