-- ==== Sys2Proof/Machine/Boarding.lean ====
section
/-! DEFINITION. One pass of a cabin through the platform (chapter 5) and the group queue (chapter 6): crossings, release,
admission, close, lock report, departure, and the seeding of the phases. -/

namespace Sys2Proof.Machine

/-! ### Door commands and phases -/

/-- A door command is queued for a cabin (R64). -/
def queueCommand (k : Nat) (c : DoorCommand) (s : State) : State :=
  setNode k { s.node k with pending := some c, taken := false } s

/-- A cabin's phase changes; a phase other than AWAY clears the door-away reported marker (R72). -/
def setPhase (k : Nat) (ph : Phase) (s : State) : State :=
  let s := setCabin k { s.cabin k with phase := ph } s
  if ph = .away then s else setNode k { s.node k with awayReported := false } s

/-- A cabin's DOOR entry is removed, and bring-home is judged at the removal (R90, R98). -/
def removeDoor (k : Nat) (s : State) : State :=
  if s.hasDoor k then bringHomeJudge (limitRemove (.door k) s) else s

/-- The gate is locked if it is unlocked for this cabin (R88, R89, R93). -/
def lockGate (k : Nat) (s : State) : State :=
  { s with bsq := { s.bsq with gate := if s.bsq.gate = some k then none else s.bsq.gate } }

/-! ### Admission (R85, R86) -/

/-- Slot A holds a STOP_CABIN move for this cabin in ARRIVED, of any origin (R85). -/
def State.stoppedAt (s : State) (k : Nat) : Bool :=
  match s.mvu.slotA with
  | none => false
  | some m => m.kind == .stopCabin k && m.status == .arrived

/-- The node is ANSWERING and its door OPEN (R85). -/
def State.doorOpen (s : State) (k : Nat) : Bool := (s.node k).state == .answering && (s.node k).door == .opened

/-- The party fits the cabin: its size within capacity, the stored load plus its mass within max cabin load (R85). -/
def State.partyFits (s : State) (g : Group) (k : Nat) : Bool :=
  decide (g.size ≤ s.cfs.boarding.capacity ∧ (s.node k).load + s.partyMass g ≤ s.cfs.boarding.maxLoad)

/-- The conditions on which the head of the queue is admitted to a cabin (R85). -/
def State.admissible (s : State) (g : Group) (k : Nat) : Bool :=
  !(s.cabin k).admittedThisPass && !s.hlu.effective.atLeast .noBoard && s.ptr.referenced
    && (s.cabin k).service == .inService && s.doorOpen k && (!g.accessible || s.stoppedAt k)
    && s.partyFits g k && s.balanceAdmits (s.partyMass g) k

/-- The manifest of a group admitted now (R86). -/
def State.manifestOf (s : State) (g : Group) : Manifest :=
  { id := g.id, size := g.size, mass := s.partyMass g, accessible := g.accessible, admitted := s.cfs.clock }

/-- The head of the queue is admitted to a cabin (R86). -/
def admitGroup (k : Nat) (g : Group) (rest : List Group) (s : State) : State :=
  let m := s.manifestOf g
  let before := s
  let s := { s with bsq := { s.bsq with queue := rest, gate := some k } }
  let s := setCabin k { s.cabin k with manifest := some m, admittedThisPass := true, lastPass := some .admitted } s
  let s := notify (.groupAdmitted k m rest.length) s
  let s := if rest = [] then notify (.queueEmpty 0 s.cfs.clock) s else s
  let s := settleCabins before s
  if g.accessible then s else giveUpMove k s

/-- An evaluation that admits nothing gives up a boarding move that stands ARRIVED with the door open (R94). Once an
accessible party has boarded in this pass the move is kept until a station resumes it (R86). -/
def evaluateFails (k : Nat) (s : State) : State :=
  match s.bsq.boardingMove with
  | none => s
  | some b => if b.cabin = k ∧ b.status = .arrived ∧ s.doorOpen k ∧ (s.cabin k).admittedThisPass = false then giveUpMove k s else s

/-- An admission evaluation of a cabin (R85). -/
def evaluate (k : Nat) (s : State) : State :=
  match s.bsq.queue with
  | [] => evaluateFails k s
  | g :: rest => if s.admissible g k then admitGroup k g rest s else evaluateFails k s

/-- The change to loading: the manifest is cleared, the window opens, and the first evaluation is made (R84). -/
def changeToLoading (k : Nat) (s : State) : State :=
  let before := s
  let s := setPhase k .loading (setCabin k { s.cabin k with manifest := none } s)
  evaluate k (settleCabins before s)

/-! ### Approach (R80) -/

/-- The head of the queue calls for a stop of this cabin (R80). -/
def State.wantsStop (s : State) (k : Nat) : Bool :=
  match s.bsq.queue with
  | [] => false
  | g :: _ =>
    g.accessible && !s.hlu.effective.atLeast .noBoard && (s.cabin k).service == .inService
      && s.bsq.boardingMove.isNone && s.balanceAdmits (s.partyMass g) k

/-- The Boarding Sequencer submits a STOP_CABIN move for a cabin and records it when it is accepted (R80, R45). -/
def submitStop (k : Nat) (s : State) : State :=
  match submitMove (.stopCabin k) .boarding s with
  | .refused _ _ => s
  | .accepted _ m t =>
    { t with bsq := { t.bsq with boardingMove := some { cabin := k, number := m.number, status := m.status } } }

/-- A record as every A crossing leaves it (R80). -/
def Cabin.approached (c : Cabin) : Cabin :=
  { c with releaseTime := none, lockTime := none, cleanPass := true, closeAnswered := false, admittedThisPass := false,
           departureDue := false }

/-- An A crossing: the approach of a cabin in AWAY, the pass fields of any, and the SLOW limit point (R79, R80, R81). -/
def crossA (k : Nat) (s : State) : State :=
  let arriving := (s.cabin k).phase == .away
  let s := setCabin k (s.cabin k).approached s
  let s := if arriving then setPhase k .arriving s else s
  let s := if arriving && s.wantsStop k then submitStop k s else s
  slowChoose s

/-! ### Door release (R82, R83) -/

/-- The first condition of R82 that fails, of 1 to 5 and then 6. -/
def State.releaseFailure (s : State) (k : Nat) : Option SubCause :=
  if !((s.cabin k).service != .outOfService || s.occupied k) then some .notInService
  else if (s.node k).state = .silent then some .nodeSilent
  else if s.hlu.effective = .park then some .level
  else if (s.cfs.speeds.board : Int) + 10 < s.ptr.speed then some .speed
  else if s.cfs.zones.x ≤ s.cfs.geometry.position s.ptr.angle k then some .position
  else if s.doorRefused k then some .pointListFull
  else none

/-- The door is released: DOOR entry, phase, release time and the RELEASE command (R82). -/
def releaseDoor (k : Nat) (s : State) : State :=
  let line := s.cfs.geometry.lineAngle k s.cfs.zones.x
  let s := limitInsert (.door k) line 0 true (s.ahead line) s
  let s := setPhase k .unloading s
  queueCommand k .release (setCabin k { s.cabin k with releaseTime := some s.cfs.clock } s)

/-- A cabin is made PASSING with NOT_RELEASED and its sub-cause; the pass is not clean (R83, R96; at a seeding with START and at
the X crossing of an ARRIVING cabin with POSITION this model's reading: log 51). -/
def makePassing (k : Nat) (cause : SubCause) (s : State) : State :=
  let s := setPhase k .passing s
  setCabin k { s.cabin k with lastPass := some (.notReleased cause), cleanPass := false } s

/-- The door is not released: PASSING, SPEED_OVER_BOARD for the sub-cause SPEED, and the boarding move given up
(R83, R94). -/
def refuseRelease (k : Nat) (cause : SubCause) (s : State) : State :=
  let s := makePassing k cause s
  let s := if cause = .speed then report .speedOverBoard (some k) s else s
  giveUpMove k s

/-- The D crossing of a cabin in ARRIVING: a measuring trial is aborted, and the release is decided (R58, R82, R83). -/
def crossD (k : Nat) (s : State) : State :=
  let s := abortTrial .doorRelease s
  match s.releaseFailure k with
  | none => releaseDoor k s
  | some c => refuseRelease k c s

/-! ### Close (R89) -/

/-- The reason recorded at the close line for a cabin admitted nothing: the first that holds, and DOOR_NOT_OPEN when every
condition held (R89). -/
def State.closeReason (s : State) (k : Nat) : PassResult :=
  if s.hlu.effective.atLeast .noBoard then .hold
  else if (s.cabin k).service ≠ .inService then .notInService
  else
    match s.bsq.queue with
    | [] => .noGroup
    | g :: _ =>
      if !s.doorOpen k then .doorNotOpen
      else if g.accessible && !s.stoppedAt k then .accessibleWait
      else if !s.partyFits g k then .tooLarge
      else if !s.balanceAdmits (s.partyMass g) k then .balance
      else .doorNotOpen

/-- The close at the C line (R89). -/
def closeCabin (k : Nat) (s : State) : State :=
  let s := queueCommand k .close (lockGate k s)
  let s := setPhase k .closing s
  let s :=
    if (s.cabin k).admittedThisPass then s else setCabin k { s.cabin k with lastPass := some (s.closeReason k) } s
  giveUpMove k s

/-- The C crossing of a cabin in UNLOADING: the manifest is cleared as at L, then the close (R79). -/
def closeUnloading (k : Nat) (s : State) : State :=
  closeCabin k (settleCabins s (setCabin k { s.cabin k with manifest := none } s))

/-! ### Departure (R93, R96) -/

/-- A SUSPECT cabin with a clean pass and a lock time becomes IN_SERVICE at its departure (R96). -/
def requalify (k : Nat) (s : State) : State :=
  let c := s.cabin k
  if c.service = .suspect ∧ c.cleanPass ∧ c.lockTime.isSome then serviceChange k { c with service := .inService } .requalified s
  else s

/-- The CABIN_DEPARTED notice of a cabin's record (R93). -/
def departedNotice (k : Nat) (c : Cabin) (clock : Nat) : Notice :=
  .cabinDeparted k (c.manifest.map (·.id)) c.lastPass c.releaseTime c.lockTime clock

/-- The departure of a cabin (R93). -/
def depart (k : Nat) (s : State) : State :=
  let s := setPhase k .away (lockGate k s)
  let s := requalify k (setCabin k { s.cabin k with departureDue := false } s)
  giveUpMove k (notify (departedNotice k (s.cabin k) s.cfs.clock) s)

/-- The X crossing of a cabin in CLOSING, DOOR_HOLD or PASSING: a departure when it has no DOOR entry, and otherwise the
departure is due (R93). -/
def crossX (k : Nat) (s : State) : State :=
  if s.hasDoor k then setCabin k { s.cabin k with departureDue := true } s else depart k s

/-! ### The crossing table (R79) -/

/-- The effect of a crossing other than A, by the cabin's phase; a combination absent from the table has none (R79).
The X crossing of an ARRIVING cabin clears the clean-pass marker as it makes the cabin PASSING (log 51). -/
def crossEffect (k : Nat) (line : PlatformLine) (s : State) : State :=
  match line, (s.cabin k).phase with
  | .d, .arriving => crossD k s
  | .l, .unloading => changeToLoading k s
  | .c, .loading => closeCabin k s
  | .c, .unloading => closeUnloading k s
  | .x, .closing => crossX k s
  | .x, .doorHold => crossX k s
  | .x, .passing => crossX k s
  | .x, .unloading => crossX k (closeCabin k s)
  | .x, .loading => crossX k (closeCabin k s)
  | .x, .arriving => crossX k (makePassing k .position s)
  | _, _ => s

/-- A crossing handed to the Boarding Sequencer (R79). -/
def crossing (k : Nat) (line : PlatformLine) (s : State) : State :=
  if line = .a then crossA k s else crossEffect k line s

/-! ### Lock report (R90) -/

/-- The lock time after a lock report: the first of the pass, which finds the cabin's DOOR entry in the list, sets it, and a
later poll of the same pass leaves it (R77, R90; log 12). -/
def State.lockTimeAt (s : State) (k : Nat) : Option Nat :=
  if s.hasDoor k || (s.cabin k).lockTime.isNone then some s.cfs.clock else (s.cabin k).lockTime

/-- A lock report: the DOOR entry goes, the lock time is set, a DOOR_HOLD cabin returns to CLOSING, and a departure that is
due is taken (R90). -/
def lockReport (k : Nat) (s : State) : State :=
  let c := s.cabin k
  let s := setCabin k
    { c with
      lockTime := s.lockTimeAt k
      phase := if c.phase = .doorHold then .closing else c.phase } s
  let s := removeDoor k s
  if c.departureDue then depart k s else s

/-- Closing and locking at a good reply: CLOSE answered sets the flag, and a LOCKED door while it is set is the lock
report (R90). -/
def closeProgress (k : Nat) (command : RingCommand) (door : Door) (s : State) : State :=
  let c := s.cabin k
  if c.phase = .closing ∨ c.phase = .doorHold then
    let s := setCabin k { c with closeAnswered := c.closeAnswered || command == .door .close } s
    if (s.cabin k).closeAnswered ∧ door = .locked then lockReport k s else s
  else s

/-! ### Seeding of the phases (R99) -/

/-- The rank of the last line a phase implies (R99). -/
def Phase.impliedRank : Phase → Nat
  | .away => 0
  | .arriving => 1
  | .unloading => 2
  | .passing => 2
  | .loading => 3
  | .closing => 4
  | .doorHold => 4

/-- The rank up to which a seeded record takes the effects of lines, NONE read as X (R99). -/
def seededRank (r : Option PlatformLine) : Nat := if r = none then 5 else lineRank r

/-- One cabin's phase is brought to agree with its seeded pass record (R99). A cabin seeded at A has its clean-pass marker set
and nothing else of the crossing (log 23); one made PASSING loses the marker (log 51). -/
def seedPhase (k : Nat) (s : State) : State :=
  let r := s.passRecord k
  let ph := (s.cabin k).phase
  if ph = .away ∨ ph = .arriving then
    match r with
    | some .a =>
      let s := setPhase k .arriving s
      setCabin k { s.cabin k with cleanPass := true } s
    | some .d | some .l | some .c => queueCommand k .close (makePassing k .start s)
    | some .x | none => if ph = .arriving then depart k s else s
  else
    (allLines.filter fun ln => ph.impliedRank < lineRank (some ln) && lineRank (some ln) ≤ seededRank r).foldl
      (fun s ln => crossEffect k ln s) s

/-- All phases are seeded, in the order of the cabin numbers (log 23), and the SLOW target is chosen (R99). -/
def seedPhases (s : State) : State := slowChoose (s.cfs.geometry.cabins.foldl (fun s k => seedPhase k s) s)

/-! ### Door hold at standstill (R91) -/

/-- One closing cabin enters DOOR_HOLD: its pass is not clean, DOOR_CLOSE_LATE is reported and CABIN_DOOR_HOLD sent
(R91, R96). The report stands whole before the notice (log 39). -/
def doorHold (k : Nat) (remaining : Int) (s : State) : State :=
  let s := setPhase k .doorHold s
  let s := report .doorCloseLate (some k) (setCabin k { s.cabin k with cleanPass := false } s)
  notify (.cabinDoorHold k (s.node k).door (s.node k).state remaining s.cfs.clock) s

/-- The Rotation Controller has entered STANDING: each cabin in CLOSING whose DOOR entry's curve limit at the update is 0
enters DOOR_HOLD, in the order of the list. curve gives the curve limit that the update computed (R91). -/
def enterDoorHolds (curve : LimitPoint → Nat) (s : State) : State :=
  s.roc.limits.foldl
    (fun t e =>
      match e.origin with
      | .door k => if (t.cabin k).phase = .closing ∧ curve e = 0 then doorHold k e.remaining t else t
      | .move => t
      | .slow => t) s

/-! ### Group queue (R104 to R108) -/

/-- The mass floor: 20 kg per person (R104). -/
def massFloor (size : Nat) : Nat := size * 20

/-- The group record of an accepted GROUP_ADD; a mass of 0 is no mass given (R104, chapter 11). -/
def State.newGroup (s : State) (id size mass : Nat) (accessible : Bool) : Group :=
  { id := id, size := size
    declared := if mass = 0 then none else some (max mass (massFloor size))
    source := if mass = 0 then .default else if mass < massFloor size then .raised else .declared
    accessible := accessible, accepted := s.cfs.clock }

/-- The group ids held by the queue and by the manifests (R107). -/
def State.heldIds (s : State) : List Nat :=
  s.bsq.queue.map (·.id) ++ s.bsq.cabins.filterMap fun c => c.manifest.map (·.id)

/-- The pacing notice that a new count after a GROUP_ADD brings (R108). -/
def addNotice (count : Nat) (s : State) : State :=
  if count = 16 then notify (.queueHalf count s.cfs.clock) s
  else if count = 32 then notify (.queueFull count s.cfs.clock) s
  else s

end Sys2Proof.Machine
end

