-- ==== Sys2Proof/Machine/Ring.lean ====
section
/-! DEFINITION. The Cabin Ring Unit (chapter 4): the window list, the slots, the judgement of a reply, its taking, the
retry, the failure and the end of a transaction. -/

namespace Sys2Proof.Machine

/-! ### Scheduling (R66, R67) -/

/-- Whether a cabin belongs to the window list (R66). -/
def State.inWindowList (s : State) (k : Nat) : Bool :=
  (s.cabin k).phase != .away || (s.node k).pending.isSome || s.hasDoor k

/-- The window list by cabin number (R66). -/
def State.windowList (s : State) : List Nat := s.cfs.geometry.cabins.filter s.inWindowList

/-- A list of cabin numbers, taken cyclically after a pointer (R66). -/
def cyclicAfter (pointer : Nat) (l : List Nat) : List Nat :=
  l.filter (fun k => decide (pointer < k)) ++ l.filter fun k => decide (k ≤ pointer)

/-- The window list in the order of R66; a window pointer of none is read as 0 (log 36). -/
def State.windowOrder (s : State) : List Nat := cyclicAfter (s.cru.windowPointer.getD 0) s.windowList

/-- The cabin after the round pointer (R67). -/
def State.roundNext (s : State) : Nat := if s.cfs.geometry.n ≤ s.cru.roundPointer then 1 else s.cru.roundPointer + 1

/-- The command of a transaction that begins for a node: its pending command, or POLL (R64). -/
def Node.nextCommand (n : Node) : RingCommand :=
  match n.pending with
  | none => .poll
  | some c => .door c

/-- A transaction to a cabin begins: a pending command is carried and the command-taken marker set (R64). -/
def startTransaction (k : Nat) (s : State) : State :=
  let n := s.node k
  let t : Transaction :=
    { cabin := k, command := n.nextCommand, retry := false, carried := n.pending.isSome, wait := none }
  let s := { s with cru := { s.cru with flight := some t } }
  if n.pending.isSome then setNode k { n with taken := true } s else s

/-- A ROUND slot (R67). -/
def beginRound (s : State) : State :=
  startTransaction s.roundNext { s with cru := { s.cru with roundPointer := s.roundNext, nextSlot := .window } }

/-- The next slot of the ring; a WINDOW slot with an empty window list is filled as a ROUND slot (R67). -/
def beginTransaction (s : State) : State :=
  match s.cru.nextSlot with
  | .round => beginRound s
  | .window =>
    match s.windowOrder with
    | [] => beginRound s
    | k :: _ => startTransaction k { s with cru := { s.cru with windowPointer := some k, nextSlot := .round } }

/-- A transaction has ended: the next begins, or in CONFIG the ring stops (R67, R68). -/
def endTransaction (s : State) : State :=
  if s.cfs.device = .service then beginTransaction s else { s with cru := { s.cru with running := false } }

/-! ### The lines of the ring (R190) -/

/-- The request of a transaction as it goes on the ring: address, command code, CRC-8 (R190). -/
def Transaction.wire (t : Transaction) : List Byte :=
  let body := be1 t.cabin ++ be1 t.command.code
  body ++ [crc8 body]

/-- A good reply's fields (R60, R190). -/
structure RingReply where
  door : Door
  load : Nat
  call : Bool
  selfCheck : Bool
  deriving DecidableEq, Repr

/-- A reply judged against its transaction: good when length, CRC-8, address, echo and door code are right (R60, R190). -/
def judgeReply (t : Transaction) (bytes : List Byte) : Option RingReply :=
  match bytes with
  | [address, echo, door, high, low, flags, check] =>
    match Door.ofCode door.toNat with
    | none => none
    | some d =>
      if check = crc8 [address, echo, door, high, low, flags] ∧ address.toNat = t.cabin ∧ echo.toNat = t.command.code then
        some { door := d, load := (half high low).toNat, call := flags.getLsbD 0, selfCheck := flags.getLsbD 1 }
      else none
  | _ => none

/-! ### Taking a good reply (R61) -/

/-- The most a node record's load holds (R61). -/
abbrev maxLoad : Nat := 4000

/-- A node record whose carried command is settled by a good reply (R65). -/
def Node.settled (n : Node) (carried : Bool) : Node :=
  if carried && n.taken then { n with pending := none, taken := false } else n

/-- A node record after steps 1 to 3 of R61. -/
def Node.answered (n : Node) (carried : Bool) (r : RingReply) (clock : Nat) : Node :=
  { n.settled carried with
    state := .answering, lastAnswer := some clock, door := r.door, load := min maxLoad r.load, call := r.call,
    selfCheck := r.selfCheck }

/-- DOOR_OPEN_AWAY is judged, and its marker set or cleared (R72). -/
def doorAway (k : Nat) (door : Door) (s : State) : State :=
  let n := s.node k
  if door = .opened ∨ door = .moving then
    if (s.cabin k).phase = .away ∧ n.awayReported = false then
      report .doorOpenAway (some k) (setNode k { n with awayReported := true } s)
    else s
  else setNode k { n with awayReported := false } s

/-- The faults of a good reply, in their order; old is the node record before the reply (R61 step 4). -/
def replyFaults (k : Nat) (retry : Bool) (r : RingReply) (old : Node) (s : State) : State :=
  let s := if retry then report .nodeRetryOk (some k) s else s
  let s := if maxLoad < r.load then report .loadOverRange (some k) s else s
  let s := doorAway k r.door s
  if r.selfCheck && !old.selfCheck then report .nodeSelfCheck (some k) s else s

/-- The CABIN_CALL notice of a newly set call flag, with the load that the reply carries (R74). -/
def replyCall (k : Nat) (r : RingReply) (old : Node) (s : State) : State :=
  if r.call && !old.call then
    notify (.cabinCall k r.door r.load (s.cabin k).phase s.cfs.clock) s
  else s

/-- The pass is not clean after a retry, a FAILED transaction or a DOOR_FAULT (R96); the marker goes in every phase
(log 40). -/
def clearClean (k : Nat) (s : State) : State := setCabin k { s.cabin k with cleanPass := false } s

/-- The Boarding Sequencer takes a good reply: the pass's cleanness (R96), close and lock (R90), the load (R112, R81, R98),
and last the admission evaluation (R85). The close and lock handling comes before the forming of the sums, and the sums and
the balance entry before SLOW and bring-home (log 41). before is the state before the reply. -/
def takeReply (k : Nat) (t : Transaction) (r : RingReply) (before s : State) : State :=
  let s := if t.retry || r.door == .doorFault then clearClean k s else s
  let s := closeProgress k t.command r.door s
  let s := if (s.node k).load = (before.node k).load then s else settleCabins before (formSums s)
  if (s.cabin k).phase = .loading then evaluate k s else s

/-- A transaction ends with a good reply (R61). -/
def goodReply (t : Transaction) (r : RingReply) (s : State) : State :=
  let k := t.cabin
  let old := s.node k
  let s' := { s with cru := { s.cru with flight := none } }
  let s' := setNode k (old.answered t.carried r s.cfs.clock) s'
  let s' := replyCall k r old (replyFaults k t.retry r old s')
  endTransaction (takeReply k t r s s')

/-! ### Retry and failure (R69, R70) -/

/-- The fault by which the silence of a cabin in a phase is classified (R70). -/
def Phase.silence : Phase → FaultCode
  | .unloading => .nodeSilentPlatform
  | .loading => .nodeSilentPlatform
  | .closing => .nodeSilentPlatform
  | .doorHold => .nodeSilentPlatform
  | .away => .nodeSilentAway
  | .arriving => .nodeSilentAway
  | .passing => .nodeSilentAway

/-- A transaction ends failed: marker, node state, the report of a new silence, and the hand-over of FAILED, after which
the pass is not clean (R63, R70, R96). -/
def failTransaction (t : Transaction) (s : State) : State :=
  let k := t.cabin
  let old := s.node k
  let s' := { s with cru := { s.cru with flight := none } }
  let s' := setNode k { old with taken := false, state := .silent } s'
  let s' := if old.state = .silent then s' else report (s.cabin k).phase.silence (some k) s'
  endTransaction (clearClean k s')

/-- A try ends without a good reply: the first is repeated at once, the retry's end is the failure (R69, R70). -/
def endTry (t : Transaction) (s : State) : State :=
  if t.retry then failTransaction t s
  else { s with cru := { s.cru with flight := some { t with retry := true, wait := none } } }

/-- The transaction in flight, when its reply wait runs. -/
def State.waiting (s : State) : Option Transaction :=
  match s.cru.flight with
  | none => none
  | some t => if t.wait.isSome then some t else none

/-- A reply's bytes arrive: discarded when no reply wait runs, otherwise judged (R59, R60). -/
def replyArrives (bytes : List Byte) (s : State) : State :=
  match s.waiting with
  | none => s
  | some t =>
    match judgeReply t bytes with
    | none => endTry t s
    | some r => goodReply t r s

/-- The last byte of the request has been sent: the reply wait begins (R60). -/
def requestSent (s : State) : State :=
  match s.cru.flight with
  | none => s
  | some t =>
    if t.wait.isSome then s else { s with cru := { s.cru with flight := some { t with wait := some 0 } } }

/-- T_node expires in a reply wait (R69, R70). -/
def nodeTimeout (s : State) : State :=
  match s.waiting with
  | none => s
  | some t => endTry t s

/-- The node records, pointers and slot kind at a reset (R76). -/
def Cru.reset (n : Nat) : Cru := { Cru.cold with roundPointer := n }

end Sys2Proof.Machine
end

