-- ==== Sys2Proof/Machine/Wind.lean ====
section
/-! DEFINITION. The Wind Monitor (chapter 7): the sample event step by step (R118), a profile's validity, the profile
selection, the channel table's write and the monitor's part of a reset's end. Each step of R118 is a function of the Wind
Monitor alone; the reports and the hand-over of the hold entry follow from what it finds. -/

namespace Sys2Proof.Machine

/-! ### Step 1: samples, gusts, means (R119, R120, R121) -/

/-- The unclamped sample of a channel (R119). -/
def ChannelRec.rawSample (c : ChannelRec) : Nat := c.pulses * c.kc / 256

/-- A sample joins the ring, the oldest of 12 leaving it (R120). -/
def ringPush (ring : List Nat) (v : Nat) : List Nat := (ring ++ [v]).drop (ring.length + 1 - 12)

/-- The sum of a list. -/
def listSum (l : List Nat) : Nat := l.foldl (· + ·) 0

/-- The mean register after an update with the ring given (R121). -/
def meanUpdate (initialised : Bool) (meanQ : Nat) (ring : List Nat) : Nat :=
  let s1 := listSum (ring.drop (ring.length - 4)) / 4
  if initialised then ((meanQ : Int) + ((s1 * 256 : Nat) - (meanQ : Int)) / 512).toNat else s1 * 256

/-- The mean part of a channel record whose ring has taken the sample (R121). -/
def ChannelRec.meaned (c : ChannelRec) : ChannelRec :=
  if c.sampleCount + 1 = 4 then
    let q := meanUpdate c.initialised c.meanQ c.ring
    { c with sampleCount := 0, meanQ := q, initialised := true, mean := q / 256 }
  else { c with sampleCount := c.sampleCount + 1 }

/-- A channel record after step 1; a disabled channel's count is discarded (R119). -/
def ChannelRec.sampled (c : ChannelRec) : ChannelRec :=
  if c.enable then
    let ring := ringPush c.ring (min 800 c.rawSample)
    ChannelRec.meaned
      { c with ring := ring, gust := listSum ring / 12, clamped := decide (800 < c.rawSample), pulses := 0 }
  else { c with pulses := 0 }

/-- Whether the sample reports CHANNEL_RANGE: the first clamped one of a run (R119). -/
def ChannelRec.rangeDue (c : ChannelRec) : Bool := c.enable && decide (800 < c.rawSample) && !c.clamped

/-- All channels after step 1. -/
def ChannelRecs.sampled (c : ChannelRecs) : ChannelRecs :=
  { hub := c.hub.sampled, platform := c.platform.sampled, river := c.river.sampled }

/-! ### Step 2: plausibility (R122, R123) -/

/-- The newest sample of a channel. -/
def ChannelRec.latest (c : ChannelRec) : Nat := c.ring.getLastD 0

/-- Another VALID channel has a gust of 80 or more (R122). -/
def ChannelRecs.windElsewhere (c : ChannelRecs) (ch : Channel) : Bool :=
  allChannels.any fun o => o != ch && (c.get o).validity == .valid && decide (80 ≤ (c.get o).gust)

/-- The zero run of a VALID channel after a sample (R122). -/
def ChannelRecs.zeroRunAfter (c : ChannelRecs) (ch : Channel) : Nat :=
  if (c.get ch).latest = 0 ∧ c.windElsewhere ch then min 240 ((c.get ch).zeroRun + 1) else 0

/-- The recovery run of an IMPLAUSIBLE channel after a sample (R123). -/
def ChannelRec.recoveryRunAfter (c : ChannelRec) : Nat := if c.latest = 0 then 0 else min 240 (c.recoveryRun + 1)

/-- A channel becomes IMPLAUSIBLE at a sample; c stands after step 1 (R122). -/
def ChannelRecs.failing (c : ChannelRecs) (ch : Channel) : Bool :=
  (c.get ch).enable && (c.get ch).validity == .valid && decide (240 ≤ c.zeroRunAfter ch)

/-- A channel becomes VALID again at a sample; c stands after step 1 (R123). -/
def ChannelRecs.recovering (c : ChannelRecs) (ch : Channel) : Bool :=
  (c.get ch).enable && (c.get ch).validity == .implausible && decide (240 ≤ (c.get ch).recoveryRunAfter)

/-- One channel record after step 2, judged on the validities at the start of the event (R122, R123). -/
def ChannelRecs.judge (c : ChannelRecs) (ch : Channel) : ChannelRec :=
  let r := c.get ch
  if r.enable then
    match r.validity with
    | .valid =>
      if c.failing ch then { r with zeroRun := c.zeroRunAfter ch, validity := .implausible, recoveryRun := 0 }
      else { r with zeroRun := c.zeroRunAfter ch }
    | .implausible =>
      if c.recovering ch then { r with recoveryRun := r.recoveryRunAfter, validity := .valid, zeroRun := 0 }
      else { r with recoveryRun := r.recoveryRunAfter }
    | .disabled => r
  else r

/-- All channels after step 2, changed together. -/
def ChannelRecs.judged (c : ChannelRecs) : ChannelRecs :=
  { hub := c.judge .hub, platform := c.judge .platform, river := c.judge .river }

/-! ### Steps 3 and 4: governing values (R124) -/

/-- The channels that are VALID. -/
def ChannelRecs.valids (c : ChannelRecs) : List ChannelRec :=
  (allChannels.map c.get).filter fun r => r.validity == .valid

/-- How many channels are VALID. -/
def ChannelRecs.validCount (c : ChannelRecs) : Nat := c.valids.length

/-- The governing gust (R124). -/
def ChannelRecs.governingGust (c : ChannelRecs) : Nat := c.valids.foldl (fun m r => max m r.gust) 0

/-- The governing mean (R124). -/
def ChannelRecs.governingMean (c : ChannelRecs) : Nat := c.valids.foldl (fun m r => max m r.mean) 0

/-! ### Step 5: the wind level (R129, R130) -/

/-- The profile in force (R126). -/
def Wmn.profileInForce (w : Wmn) : Profile := w.profile w.operative

/-- The thresholds of a level above CALM. -/
def Profile.thresholds (p : Profile) : WindLevel → Thresholds
  | .calm => p.breeze
  | .breeze => p.breeze
  | .gusty => p.gusty
  | .strong => p.strong
  | .severe => p.severe

/-- A gust and mean call for a level (R129). -/
def Thresholds.entered (t : Thresholds) (gust mean : Nat) : Bool := decide (t.enterGust ≤ gust ∨ t.enterMean ≤ mean)

/-- The warranted level of a gust and mean under a profile (R129). -/
def Profile.warranted (p : Profile) (gust mean : Nat) : WindLevel :=
  if p.severe.entered gust mean then .severe
  else if p.strong.entered gust mean then .strong
  else if p.gusty.entered gust mean then .gusty
  else if p.breeze.entered gust mean then .breeze
  else .calm

/-- The floor conditions of a sample after step 2, before the warm-up count advances (R125). -/
def floorConditions (validCount warmUp : Nat) : FloorConds :=
  { noValid := validCount == 0, oneValid := validCount == 1, warmUp := decide (warmUp < 240) }

/-- The floor level of a sample's conditions (R125). -/
def FloorConds.level (f : FloorConds) : WindLevel :=
  if f.noValid || f.warmUp then .gusty else if f.oneValid then .breeze else .calm

/-- The Wind Monitor after steps 1 to 4, with the warranted and the floor level of this sample (R118). -/
def Wmn.observed (w : Wmn) : Wmn :=
  let c := w.channels.sampled.judged
  let gust := c.governingGust
  let mean := c.governingMean
  let f := floorConditions c.validCount w.warmUp
  { w with
    channels := c, gust := gust, mean := mean, noValid := c.validCount == 0,
    warranted := w.profileInForce.warranted gust mean, floorConds := f, floorLevel := f.level }

/-- The governing values lie below the exit values of the wind level (R130). -/
def Wmn.calmSample (w : Wmn) : Bool :=
  let t := w.profileInForce.thresholds w.level
  decide (w.gust < t.exitGust ∧ w.mean < t.exitMean)

/-- The calm period expires at a sample at which no rise is taken; w stands after step 4 (R130). -/
def Wmn.calmExpires (w : Wmn) : Bool :=
  w.level != .calm && decide (w.warranted.code ≤ w.level.code) && w.calmSample
    && decide (4 * w.profileInForce.calmPeriod ≤ w.calm + 1)

/-- The calm timer is set to 0 and restarted, or stopped at 0 at CALM. -/
def Wmn.calmRestart (w : Wmn) : Wmn := { w with calm := 0, calmRuns := w.level != .calm }

/-- Step 5: the level rises to the warranted level, or the calm timer is judged (R129, R130), during the warm-up as well
(log 45). -/
def Wmn.levelled (w : Wmn) : Wmn :=
  if w.level.code < w.warranted.code then Wmn.calmRestart { w with level := w.warranted }
  else if w.level = .calm then w
  else if w.calmExpires then
    if w.floorLevel.code < w.level.code then Wmn.calmRestart { w with level := w.level.below } else w.calmRestart
  else if w.calmSample then { w with calm := w.calm + 1 }
  else { w with calm := 0 }

/-- Step 6: a level below the floor level is raised to it (R125). -/
def Wmn.floored (w : Wmn) : Wmn :=
  if w.level.code < w.floorLevel.code then Wmn.calmRestart { w with level := w.floorLevel } else w

/-- The Wind Monitor after a sample event (R118). -/
def Wmn.sampleAfter (w : Wmn) : Wmn :=
  let v := w.observed.levelled.floored
  { v with warmUp := min 240 (v.warmUp + 1) }

/-- The cause of a level changed by a sample: FLOOR when the floor gave the final level, else RISE or FALL (R132). -/
def Wmn.sampleCause (w : Wmn) : WindCause :=
  let l := w.observed.levelled
  if l.level.code < l.floorLevel.code then .floor else if w.level.code < l.level.code then .rise else .fall

/-! ### The wind hold (R131, R132) -/

/-- The entry is handed to the Hold Unit and WIND_LEVEL is sent (R131, R132; their order: log 11). -/
def windHandOver (previous : Option WindLevel) (cause : WindCause) (s : State) : State :=
  let w := s.wmn
  notify
    (.windLevel w.level w.level.hold previous cause w.gust w.mean w.channels.validCount w.operative s.cfs.clock)
    (holdInsert .wind w.level.hold s)

/-- The reports of a sample event in the order found: CHANNEL_RANGE, CHANNEL_IMPLAUSIBLE, NO_VALID_CHANNEL (R118). w is
the Wind Monitor before the event. -/
def windReports (w : Wmn) (s : State) : State :=
  let sampled := w.channels.sampled
  let s := allChannels.foldl
    (fun t ch => if (w.channels.get ch).rangeDue then report .channelRange (some (channelNumber ch)) t else t) s
  let s := allChannels.foldl
    (fun t ch => if sampled.failing ch then report .channelImplausible (some (channelNumber ch)) t else t) s
  if sampled.judged.validCount = 0 ∧ w.noValid = false then report .noValidChannel none s else s

/-- A sample event (R118). Nothing that a report does reads the Wind Monitor, so its state is placed first. -/
def windSample (s : State) : State :=
  let w := s.wmn
  let t := windReports w { s with wmn := w.sampleAfter }
  if w.sampleAfter.level = w.level then t else windHandOver (some w.level) w.sampleCause t

/-! ### Profiles (R126, R127, R128) -/

/-- The profile that seventeen values make, in the order of the request (R127); a missing value is 0. -/
def profileOf (v : List Nat) : Profile :=
  let t (i : Nat) : Thresholds :=
    { enterGust := v.getD i 0, enterMean := v.getD (i + 1) 0, exitGust := v.getD (i + 2) 0, exitMean := v.getD (i + 3) 0 }
  { breeze := t 0, gusty := t 4, strong := t 8, severe := t 12, calmPeriod := v.getD 16 0 }

/-- The values of a profile in the order of the request (R127). -/
def Profile.values (p : Profile) : List Nat :=
  let t (x : Thresholds) : List Nat := [x.enterGust, x.enterMean, x.exitGust, x.exitMean]
  t p.breeze ++ t p.gusty ++ t p.strong ++ t p.severe ++ [p.calmPeriod]

/-- Whether a value of a WIND_PROFILE_WRITE, by its place from 0, lies in its field range (R126). -/
def profileInRange (i v : Nat) : Bool := if i = 16 then decide (60 ≤ v ∧ v ≤ 3600) else decide (1 ≤ v ∧ v ≤ 800)

/-- The first place from i on whose value is out of range (R127 step 3). -/
def profileRangeFailure : Nat → List Nat → Option Nat
  | _, [] => none
  | i, v :: vs => if profileInRange i v then profileRangeFailure (i + 1) vs else some i

/-- The relations of a valid profile, each as the two places it compares: the first's value is at least the second's
(R126), enter values by neighbouring levels (this model's choice: log 48). They stand in the order of the lower place of
each. -/
def profileRelations : List (Nat × Nat) :=
  [(0, 2), (4, 0), (1, 3), (5, 1), (4, 6), (8, 4), (5, 7), (9, 5), (8, 10), (12, 8), (9, 11), (13, 9), (12, 14), (13, 15)]

/-- The first place that takes part in a relation that fails (R127 step 4). -/
def profileRelationFailure (v : List Nat) : Option Nat :=
  ((profileRelations.filter fun r => decide (v.getD r.1 0 < v.getD r.2 0)).map fun r => min r.1 r.2).head?

/-- A profile is replaced (R127). -/
def Wmn.putProfile (w : Wmn) (id : ProfileId) (p : Profile) : Wmn :=
  match id with
  | .p0 => { w with profile0 := p }
  | .p1 => { w with profile1 := p }

/-- The Wind Monitor after steps 1 to 4 of a selection of a profile not operative; the warranted level is from then on the
one found under that profile (R128, R129). -/
def Wmn.selected (w : Wmn) (id : ProfileId) : Wmn :=
  let w := { w with operative := id, warranted := (w.profile id).warranted w.gust w.mean }
  let w := { w with level := w.level.max w.warranted }
  Wmn.calmRestart { w with level := w.level.max w.floorLevel }

/-- A selection (R128). -/
def selectProfile (id : ProfileId) (s : State) : State :=
  if s.wmn.operative = id then s
  else
    let w := s.wmn
    let s := { s with wmn := w.selected id }
    if s.wmn.level = w.level then s else windHandOver (some w.level) .select s

/-! ### Channel table and resets (R117, R134, R135) -/

/-- A channel record with its history cleared (R117). -/
def ChannelRec.cleared (c : ChannelRec) : ChannelRec :=
  { c with
    ring := [], sampleCount := 0, gust := 0, meanQ := 0, initialised := false, mean := 0, clamped := false, zeroRun := 0,
    recoveryRun := 0 }

/-- A channel record after a write of its table entry (R117). -/
def ChannelRec.written (c : ChannelRec) (enable : Bool) (kc : Nat) : ChannelRec :=
  let n := { c with enable := enable, kc := kc }
  if c.enable = enable then n
  else if enable then { n.cleared with validity := .valid }
  else { n.cleared with validity := .disabled }

/-- A channel record at a warm reset: history and pulses from 0, an enabled channel VALID (R135). -/
def ChannelRec.restarted (c : ChannelRec) : ChannelRec :=
  { c.cleared with pulses := 0, validity := if c.enable then .valid else .disabled }

/-- The Wind Monitor at the end of a reset: the level raised to GUSTY if it was below, calm timer 0 and running, warm-up 0,
governing values 0, the no-valid condition set when no channel is enabled; the fields of the latest sample as at reset
(R134, R135; log 2). -/
def Wmn.resetEnd (w : Wmn) : Wmn :=
  { w with
    level := w.level.max .gusty, calm := 0, calmRuns := true, warmUp := 0, gust := 0, mean := 0,
    noValid := !(w.channels.hub.enable || w.channels.platform.enable || w.channels.river.enable),
    warranted := .calm, floorLevel := .calm, floorConds := { noValid := false, oneValid := false, warmUp := false } }

/-- The Wind Monitor while a cold reset is held: as after it, but its level is not yet raised (R134). -/
def Wmn.held : Wmn := { Wmn.cold with level := .calm, calmRuns := false }

/-- The Wind Monitor at a warm reset (R135). -/
def Wmn.restarted (w : Wmn) : Wmn :=
  Wmn.resetEnd { w with channels :=
    { hub := w.channels.hub.restarted, platform := w.channels.platform.restarted, river := w.channels.river.restarted } }

end Sys2Proof.Machine
end

