-- ==== Sys2Proof/Machine/Reset.lean ====
section
/-! DEFINITION. The two resets: what each block takes at the cold reset and at its end, and at the warm reset of RESTART
(R15, R16, R41, R42, R52, R76, R101, R134, R135, R143, R150, R154, R170, R171, R178). -/

namespace Sys2Proof.Machine

/-! ### Cold reset -/

/-- The state while a cold reset is held: every block at its reset value, the pins, the encoder counter and the queue of
waiting commands as they are (log 3). -/
def coldReset (s : State) : State :=
  { ptr := { Ptr.cold with counter := s.ptr.counter, sample := s.ptr.counter }
    roc := { Roc.cold with
      driveReady := s.roc.driveReady, brakeReleased := s.roc.brakeReleased, brakeSet := s.roc.brakeSet }
    mvu := .cold
    cru := .cold
    bsq := .cold
    wmn := .held
    hlu := .cold
    pim := { Pim.cold with inputs := s.pim.inputs.map fun i => { Input.cold with raw := i.raw } }
    fbu := .cold
    lkp := .cold
    cfs := .cold
    time := { resetHeld := true, control := 0, sample := 0, second := 0 }
    pending := s.pending }

/-- The brake-set timer starts at the end of a reset (R21). -/
def brakeWaitStarts (s : State) : State := { s with roc := brakeSetStart s.roc }

/-- The end of the cold reset: counter sample, brake-set timer, wind entry, inputs, timers (R15, R41, R134, R143, R150). It
has no effect while no reset is held (log 3). -/
def coldResetEnd (s : State) : State :=
  if s.time.resetHeld then
    let s := { s with
      time := { resetHeld := false, control := 0, sample := 0, second := 0 }
      ptr := { s.ptr with sample := s.ptr.counter }
      wmn := s.wmn.resetEnd }
    inputsResetEnd (windHandOver none .reset (brakeWaitStarts s))
  else s

/-! ### Warm reset -/

/-- The Position Tracker at a warm reset; an empty history gives a measured speed of 0 (R11, R16). -/
def Ptr.restarted (p : Ptr) : Ptr :=
  { p with
    latch := none, history := [], zeroRun := 0, standstill := false, speed := 0,
    passRecords := List.replicate maxCabins none }

/-- The Rotation Controller at a warm reset (R42). -/
def Roc.restarted (r : Roc) (aCfg : Nat) : Roc :=
  { Roc.cold with
    aEff := aCfg, driveReady := r.driveReady, brakeReleased := r.brakeReleased, brakeSet := r.brakeSet }

/-- The Move Unit at a warm reset (R52, R54). -/
def Mvu.restarted (m : Mvu) : Mvu := { m with slotA := none, slotB := none }

/-- A cabin record at a warm reset (R77). -/
def Cabin.restarted (c : Cabin) : Cabin :=
  { c with phase := .away, cleanPass := false, closeAnswered := false, admittedThisPass := false, departureDue := false }

/-- The Boarding Sequencer at a warm reset; the node records being reset, the sums are 0 (R101, R103, R111, R112). -/
def Bsq.restarted (b : Bsq) : Bsq :=
  { b with
    cabins := b.cabins.map Cabin.restarted, slowTarget := none, slowCrossed := false, boardingMove := none, gate := none,
    queue := [],
    sumX := 0, sumY := 0, sumQ := 0 }

/-- A fault bank at a warm reset: a valid record is marked as made before it (R171). -/
def Bank.restarted (b : Bank) : Bank := { b with record := b.record.map fun r => { r with beforeRestart := true } }

/-- The fault banks at a warm reset (R171). -/
def Fbu.restarted (f : Fbu) : Fbu :=
  { rotation := f.rotation.restarted, ring := f.ring.restarted, wind := f.wind.restarted,
    platform := f.platform.restarted, link := f.link.restarted }

/-- A port at a warm reset, with the reply its slot keeps (R154, R178). -/
def PortState.restarted (q : PortState) (kept : Option Frame) : PortState :=
  { q.presenceStopped with
    receiver := .hunting, fifo := [], transmitter := none, outbox := [], reply := kept,
    noticeLost := q.noticeLost || !q.outbox.isEmpty || (q.reply.isSome && kept.isNone) }

/-- The ports at a warm reset: port 1 keeps the reply to the RESTART (R178). -/
def Lkp.restarted (v : Lkp) : Lkp := { p1 := v.p1.restarted v.p1.reply, p2 := v.p2.restarted none }

/-- A pending bank's FAULT entry is inserted again (R171). -/
def bankReinserted (s : State) (b : BankId) : State :=
  match (s.bank b).hold with
  | none => s
  | some a => holdInsert (.fault b) a.level s

/-- The state inside a warm reset, before its end. The service clock runs on with its phase (R182). -/
def warmResetHeld (s : State) : State :=
  { s with
    ptr := s.ptr.restarted
    roc := s.roc.restarted s.cfs.speeds.aCfg
    mvu := s.mvu.restarted
    cru := Cru.reset s.cfs.geometry.n
    bsq := s.bsq.restarted
    wmn := s.wmn.restarted
    hlu := .cold
    fbu := s.fbu.restarted
    lkp := s.lkp.restarted
    cfs := { s.cfs with device := .config }
    time := { s.time with control := 0, sample := 0 } }

/-- The warm reset (R188): what it clears, and the event that ends it, in the order of log 18: brake-set timer, wind entry,
FAULT entries by bank number, input groups. -/
def warmReset (s : State) : State :=
  let s := brakeWaitStarts (warmResetHeld s)
  inputsResetEnd (allBanks.foldl bankReinserted (windHandOver none .reset s))

end Sys2Proof.Machine
end

