-- ==== Sys2Proof/Machine/Tracker.lean ====
section
/-! DEFINITION. The Position Tracker's part of a control update (chapter 1): the delta, the index mark, the encoder checks,
the new wheel angle, the lowering of the limit points (R32), the seeding of the pass records and the crossings. -/

namespace Sys2Proof.Machine

/-! ### One update's reading (R3, R4, R11 to R14) -/

/-- The delta of an update that finds p (R3). -/
def Ptr.delta (p : Ptr) : Int := countDiff p.counter p.sample

/-- The jump limit J (R13). -/
def jumpLimit (g : Geometry) (sp : Speeds) : Nat := ceilDiv (sp.cruise * 100) g.u + 16

/-- The update raises ENCODER_JUMP (R13). -/
def Ptr.jumps (p : Ptr) (g : Geometry) (sp : Speeds) : Bool := decide ((jumpLimit g sp : Int) < p.delta)

/-- The update raises REVERSE_MOTION (R14). -/
def Ptr.reverses (p : Ptr) : Bool := decide (p.delta < -8)

/-- The latched mark that an update takes up; a jump discards it unused (R4, R13). -/
def Ptr.mark (p : Ptr) (g : Geometry) (sp : Speeds) : Option Count := if p.jumps g sp then none else p.latch

/-- An angle reduced modulo the counts per revolution. -/
def Geometry.wrap (g : Geometry) (a : Int) : Nat := (a % (g.cpr : Int)).toNat

/-- Circular distance of two wheel angles (R6). -/
def Geometry.circular (g : Geometry) (a b : Nat) : Nat := min (g.wrap ((a : Int) - b)) (g.wrap ((b : Int) - a))

/-- The wheel angle of a mark latched at m, from the angle before the update (R4). -/
def Ptr.markAngle (p : Ptr) (g : Geometry) (m : Count) : Nat := g.wrap (p.angle + countDiff m p.sample)

/-- The update raises INDEX_MISMATCH (R6). -/
def Ptr.mismatches (p : Ptr) (g : Geometry) (sp : Speeds) : Bool :=
  match p.mark g sp with
  | none => false
  | some m => p.referenced && decide (g.tIdx < g.circular (p.markAngle g m) g.iRef)

/-- The correction that a mark taken up makes to plain counting: from the mark's counted angle to I_ref, forward or backward
(R4, R6; log 34). -/
def Ptr.correction (p : Ptr) (g : Geometry) (sp : Speeds) : Int :=
  match p.mark g sp with
  | none => 0
  | some m => signedResidue g.cpr (g.wrap ((g.iRef : Int) - p.markAngle g m))

/-- The movement of an update, counted movement and correction together: a cabin passes lines forward, and so raises
crossings, only when it is above 0 (R6, R9, R14; log 34). -/
def Ptr.advance (p : Ptr) (g : Geometry) (sp : Speeds) : Int := p.delta + p.correction g sp

/-- The new wheel angle (R3, R4). -/
def Ptr.newAngle (p : Ptr) (g : Geometry) (sp : Speeds) : Nat :=
  match p.mark g sp with
  | none => g.wrap (p.angle + p.delta)
  | some m => g.wrap (g.iRef + countDiff p.counter m)

/-- The reference state after the update (R5, R13). -/
def Ptr.newReferenced (p : Ptr) (g : Geometry) (sp : Speeds) : Bool :=
  if p.jumps g sp then false else p.referenced || p.latch.isSome

/-- The delta history after the update (R11). -/
def Ptr.newHistory (p : Ptr) : List Int := (p.history ++ [p.delta]).drop (p.history.length + 1 - 20)

/-- The measured speed of a history (R11). -/
def measuredSpeed (u : Nat) (history : List Int) : Int := history.foldl (· + ·) 0 * u / 1000

/-- The zero run after the update (R12). -/
def Ptr.newZeroRun (p : Ptr) : Nat := if p.delta = 0 then min 10 (p.zeroRun + 1) else 0

/-- Standstill after the update (R12). -/
def Ptr.newStandstill (p : Ptr) : Bool := decide (p.delta = 0) && (p.standstill || p.newZeroRun == 10)

/-- The Position Tracker after it has settled the update, before the pass records change. -/
def Ptr.settled (p : Ptr) (g : Geometry) (sp : Speeds) : Ptr :=
  { p with
    sample := p.counter, angle := p.newAngle g sp, referenced := p.newReferenced g sp, latch := none,
    history := p.newHistory, zeroRun := p.newZeroRun, standstill := p.newStandstill,
    speed := measuredSpeed g.u p.newHistory }

/-! ### Lowering of the limit points (R32) -/

/-- The remaining travel of an entry after an update: lowered by the signed change of W, or set afresh at an update that
references the wheel (R32). before and after are the Position Tracker before and after it settled the update. -/
def newRemaining (g : Geometry) (before after : Ptr) (e : LimitPoint) : Int :=
  if before.referenced = false ∧ after.referenced = true then
    signedResidue g.cpr (g.wrap ((e.line : Int) - after.angle))
  else e.remaining - signedResidue g.cpr (g.wrap ((after.angle : Int) - before.angle))

/-- The list after the lowering of an update. -/
def lowered (g : Geometry) (before after : Ptr) (limits : List LimitPoint) : List LimitPoint :=
  limits.map fun e => { e with remaining := newRemaining g before after e }

/-- The Position Tracker has settled an update and the remaining travels follow it (R3, R32; log 10). -/
def settleUpdate (s : State) : State :=
  let after := s.ptr.settled s.cfs.geometry s.cfs.speeds
  { s with ptr := after, roc := { s.roc with limits := lowered s.cfs.geometry s.ptr after s.roc.limits } }

/-! ### Encoder checks (R6, R13, R14) -/

/-- The reports of an update that found p: ENCODER_JUMP, REVERSE_MOTION, INDEX_MISMATCH (log 9). -/
def encoderReports (p : Ptr) (s : State) : State :=
  let g := s.cfs.geometry
  let sp := s.cfs.speeds
  let s := if p.jumps g sp then report .encoderJump none s else s
  let s := if p.reverses then report .reverseMotion none s else s
  if p.mismatches g sp then report .indexMismatch none s else s

/-! ### Pass records (R10) -/

/-- The record that seeding gives a cabin at a position (R10). -/
def Zones.seed (z : Zones) (position : Int) : Option PlatformLine :=
  if z.inWindow position then (allLines.filter fun ln => decide (z.line ln ≤ position)).getLast? else none

/-- Every pass record is seeded from the present positions (R10); records above N are NONE. -/
def seedRecords (s : State) : State :=
  let g := s.cfs.geometry
  let seeded := g.cabins.map fun k => s.cfs.zones.seed (g.position s.ptr.angle k)
  { s with ptr := { s.ptr with passRecords := seeded ++ List.replicate (maxCabins - seeded.length) none } }

/-- Pass records are seeded, and in SERVICE the phases with them (R5, R17, R99). -/
def seedAll (s : State) : State :=
  let s := seedRecords s
  if s.cfs.device = .service then seedPhases s else s

/-- After the crossings, the record of every cabin at or beyond X + O becomes NONE (R10; log 33). -/
def clearLeavers (s : State) : State :=
  let g := s.cfs.geometry
  let z := s.cfs.zones
  g.cabins.foldl
    (fun t k => if z.x + z.o ≤ g.position s.ptr.angle k then setPassRecord k none t else t) s

/-! ### Crossings (R9) -/

/-- The platform lines that lie in (old, new], in line order (R9). -/
def Zones.passed (z : Zones) (old new : Int) : List PlatformLine :=
  allLines.filter fun ln => decide (old < z.line ln ∧ z.line ln ≤ new)

/-- A cabin's place in a list ordered by position, the greatest first. -/
def insertByPosition (position : Nat → Int) (k : Nat) : List Nat → List Nat
  | [] => [k]
  | j :: js => if position j ≤ position k then k :: j :: js else j :: insertByPosition position k js

/-- Cabins ordered by position, the greatest first (R9). -/
def byPosition (position : Nat → Int) (l : List Nat) : List Nat := l.foldr (insertByPosition position) []

/-- The SLOW target is noted as having crossed D when it is the cabin that crosses D or a later line (R81). -/
def noteSlowCrossed (k : Nat) (ln : PlatformLine) (s : State) : State :=
  if s.bsq.slowTarget = some k ∧ lineRank (some .d) ≤ lineRank (some ln) then
    { s with bsq := { s.bsq with slowCrossed := true } }
  else s

/-- One crossing, raised when its line comes after the cabin's record, which takes it (R10). -/
def raiseCrossing (k : Nat) (s : State) (ln : PlatformLine) : State :=
  if lineRank (s.passRecord k) < lineRank (some ln) then
    crossing k ln (noteSlowCrossed k ln (setPassRecord k (some ln) s))
  else s

/-- All crossings of one cabin at an update, from the angle before it. -/
def raiseCabin (before : Nat) (s : State) (k : Nat) : State :=
  let g := s.cfs.geometry
  (s.cfs.zones.passed (g.position before k) (g.position s.ptr.angle k)).foldl (raiseCrossing k) s

/-- The crossings of an update, cabin by cabin (R9). -/
def raiseCrossings (before : Nat) (s : State) : State :=
  let g := s.cfs.geometry
  let moved := g.cabins.filter fun k =>
    !(s.cfs.zones.passed (g.position before k) (g.position s.ptr.angle k)).isEmpty
  (byPosition (g.position s.ptr.angle) moved).foldl (raiseCabin before) s

/-- The seeding of an update that references the wheel, or the crossings in SERVICE of one that moves the wheel forward; then
the records of the cabins that have left (R5, R6, R9, R10, R14). before is the Position Tracker before the update. -/
def passUpdate (before : Ptr) (s : State) : State :=
  let s :=
    if before.referenced = false ∧ s.ptr.referenced = true then seedAll s
    else if s.cfs.device = .service ∧ before.referenced = true ∧ s.ptr.referenced = true
        ∧ 0 < before.advance s.cfs.geometry s.cfs.speeds then
      raiseCrossings before.angle s
    else s
  clearLeavers s

end Sys2Proof.Machine
end

