-- ==== Sys2Proof/Machine/Commission.lean ====
section
/-! DEFINITION. Commissioning and decommissioning (R183 to R187). -/

namespace Sys2Proof.Machine

/-! ### Checks (R183, R184) -/

/-- Check 2: zone order and bounds (R2, R183). -/
def zonesOrdered (g : Geometry) (z : Zones) : Bool :=
  decide (z.a < z.d ∧ z.d < 0 ∧ 0 < z.c ∧ z.c < z.x ∧ z.c < g.p ∧ z.x ≤ 2 * (g.p : Int) ∧ z.x - z.a ≤ 3 * (g.p : Int)
    ∧ z.o ≤ g.p)

/-- Check 3: the order of the speeds (R19, R183). -/
def speedsOrdered (v : Speeds) : Bool :=
  decide (v.board ≤ v.cruise ∧ 20 ≤ v.board ∧ v.capSlow ≤ v.cruise ∧ v.capNoBoard ≤ v.capSlow
    ∧ v.capUnloadOnly ≤ v.capNoBoard ∧ 20 ≤ v.capUnloadOnly)

/-- The room between the close line and the departure line, in mm (R184). -/
def roomAvailable (g : Geometry) (z : Zones) : Int := (z.x - z.c) * g.u / 1000

/-- The room a door closing at its slowest needs, in mm (R184). -/
def roomNeeded (v : Speeds) (r : RingTable) : Nat :=
  v.board * r.tCloseMax + ceilDiv (v.board * v.board) (2 * v.aCfg) + ceilDiv (v.board * 1000) 20000 + v.margin

/-- Check 6 (R113, R183). -/
def balanceOrdered (b : BalanceTable) : Bool := decide (b.clear < b.warn ∧ b.warn ≤ b.lim)

/-- Check 9: no cabin has a manifest, or the geometry is the commissioned one (R183, R185). -/
def manifestsAgree (s : State) : Bool :=
  s.bsq.cabins.all (fun c => c.manifest.isNone) || s.cfs.commissioned == some s.cfs.geometry

/-- Whether a commissioning check passes (R183). -/
def commissionCheck (s : State) : Nat → Bool
  | 1 => decide (s.cfs.geometry.cpr ≤ 4194304)
  | 2 => zonesOrdered s.cfs.geometry s.cfs.zones
  | 3 => speedsOrdered s.cfs.speeds
  | 4 => decide (s.cfs.speeds.aMin ≤ s.cfs.speeds.aCfg)
  | 5 => decide ((roomNeeded s.cfs.speeds s.cfs.ring : Int) ≤ roomAvailable s.cfs.geometry s.cfs.zones)
  | 6 => balanceOrdered s.cfs.balance
  | 7 => decide (s.cfs.boarding.perPerson ≤ s.cfs.boarding.maxLoad)
  | 8 => decide (s.cfs.geometry.iRef < s.cfs.geometry.cpr)
  | 9 => manifestsAgree s
  | _ => true

/-- The first check that fails (R183). -/
def commissionFailure (s : State) : Option Nat := [1, 2, 3, 4, 5, 6, 7, 8, 9].find? fun n => !commissionCheck s n

/-! ### COMMISSION (R186) -/

/-- Steps 1 and 2: SERVICE, the commissioned geometry, a_eff (R40, R185). -/
def commissionStore (s : State) : State :=
  { s with
    cfs := { s.cfs with device := .service, commissioned := some s.cfs.geometry }
    roc := { s.roc with aEff := s.cfs.speeds.aCfg } }

/-- Step 3: the mounting-angle table and the sums (R111, R112, R115). -/
def commissionBalance (s : State) : State :=
  formSums { s with bsq := { s.bsq with angles := some (angleTable s.cfs.geometry.n) } }

/-- Step 4: every node UNKNOWN, and the ring RUNNING; a transaction still in flight goes on to its end (R63, R68). -/
def startRing (s : State) : State :=
  let s := { s with cru := { s.cru with
    nodes := s.cru.nodes.map fun n => { n with state := .unknown }
    running := true, windowPointer := none, roundPointer := s.cfs.geometry.n, nextSlot := .window } }
  if s.cru.flight.isNone then beginTransaction s else s

/-- Step 5: a presence timer with a presence time other than 0 starts from 0 (R154). -/
def PortState.presenceStart (q : PortState) : PortState := if q.presenceTime = 0 then q else q.presenceStarted

/-- Step 5 for both ports. -/
def startPresence (s : State) : State :=
  { s with lkp := { p1 := s.lkp.p1.presenceStart, p2 := s.lkp.p2.presenceStart } }

/-- The commission, taken by the blocks in the order of R186 (log 19). -/
def commission (s : State) : State :=
  let s := startPresence (startRing (commissionBalance (commissionStore s)))
  if s.ptr.referenced then seedAll s else s

/-! ### DECOMMISSION (R187) -/

/-- The wheel may be taken out of service or restarted: BRAKED or TRIPPED (R187, R188). -/
def State.wheelParked (s : State) : Bool := s.roc.rotation == .braked || s.roc.rotation == .tripped

/-- The Rotation Controller at decommission (R40). -/
def Roc.decommissioned (r : Roc) : Roc := { r with runEnable := false, limits := [] }

/-- The Cabin Ring Unit at decommission: it stops, at once or after the transaction in flight (R68). -/
def Cru.decommissioned (c : Cru) : Cru := if c.flight.isNone then { c with running := false } else c

/-- The Boarding Sequencer at decommission, but for its hold entry (R100). -/
def Bsq.decommissioned (b : Bsq) : Bsq :=
  { b with
    cabins := b.cabins.map Cabin.restarted, slowTarget := none, slowCrossed := false, boardingMove := none, gate := none }

/-- The decommission, taken by the blocks in the order of R187. -/
def decommission (s : State) : State :=
  let s := { s with
    cfs := { s.cfs with device := .config }
    roc := s.roc.decommissioned }
  let s := endMoves .decommission s
  let s := { s with
    cru := s.cru.decommissioned
    lkp := { p1 := s.lkp.p1.presenceStopped, p2 := s.lkp.p2.presenceStopped }
    bsq := s.bsq.decommissioned }
  holdRemove .boarding s

end Sys2Proof.Machine
end

