-- ==== Sys2Proof/Config.lean ====
section
/-! DEFINITION. The free values: what the spec uses and does not state. Each is an opaque constant without a body, so that
no proof can see its value and a statement about it holds whatever it is. -/

namespace Sys2Proof

/-- FREE VALUE (log 15). The field index of the refusal BAD_FIELD that names Kc (R117, R180 step 6) when the request does
not write Kc: R176 numbers the fields of the request, and Kc is none of them. A function of the channel index named and of
the value list. -/
opaque Config.unnamedKcFieldIndex (index : Byte) (values : List (Byte × Quad)) : Byte

/-- FREE VALUE (log 50). The arrival error of a move that is judged at standstill and stays ACTIVE: R44 has it present once
the move has been judged, and R48 gives its value for the other outcomes only. A function of the move's number, its arrival
error before the judgement, and its remaining travel. -/
opaque Config.heldArrivalError (number : Nat) (before : Option Int) (remaining : Int) : Int

end Sys2Proof
end

