-- ==== Sys2Proof/Machine/Flags.lean ====
section
/-! DEFINITION. The flag bytes of the layouts of chapter 11: STATUS (11.3), CABIN_READ (11.4), FAULT_READ (11.5). Bits without
a meaning are 0 (R189). -/

namespace Sys2Proof.Machine

/-! ### STATUS -/

/-- Offset 5: commissioned geometry held, and the ports' notice-lost flags. -/
def State.deviceFlags (s : State) : Nat :=
  flagBits [s.cfs.commissioned.isSome, s.lkp.p1.noticeLost, s.lkp.p2.noticeLost]

/-- Offset 12: REFERENCED and standstill. -/
def Ptr.flags (p : Ptr) : Nat := flagBits [p.referenced, p.standstill]

/-- Offset 14: the Rotation Controller's indications, timers and flags. -/
def Roc.flags (r : Roc) : Nat :=
  flagBits [r.waitingDriveReady, r.runEnable, r.releaseTimer.isSome, r.standTimer.isSome, r.brakeSetTimer.isSome,
            r.grace.isSome, r.brakeConfirmed, r.trialStep]

/-- Offset 15: the feedback lines present. -/
def Roc.lines (r : Roc) : Nat := flagBits [r.driveReady, r.brakeReleased, r.brakeSet]

/-- Offset 37: bit k - 1 for each member cabin k of the window list, a 48-bit field. -/
def State.windowBits (s : State) : Nat :=
  flagBits ((List.range 48).map fun i => decide (i + 1 ∈ s.windowList))

/-- Offset 50: bring-home and balance entries present. -/
def State.boardingFlags (s : State) : Nat := flagBits [(s.hold .boarding).isSome, (s.hold .balance).isSome]

/-- Offset 73: one bank's flags. -/
def Bank.statusFlags (b : Bank) : Nat := flagBits [b.hold.isSome, b.record.isSome, b.thresholdReached]

/-- Offset 88: one port's flags. -/
def State.portFlags (s : State) (p : Port) : Nat :=
  flagBits [(s.port p).presence.isSome, (s.hold (.link p)).isSome]

/-- The flag byte of a limit-point entry. -/
def LimitPoint.flags (e : LimitPoint) : Nat := flagBits [e.margin, e.overrunReported]

/-! ### CABIN_READ -/

/-- Offset 4: the Boarding Sequencer's flags of a cabin. -/
def Cabin.flags (c : Cabin) : Nat :=
  flagBits [c.cleanPass, c.closeAnswered, c.admittedThisPass, c.departureDue, c.releaseTime.isSome, c.lockTime.isSome]

/-- Offset 5: the node record's flags. -/
def Node.flags (n : Node) : Nat := flagBits [n.call, n.selfCheck, n.taken, n.awayReported, n.lastAnswer.isSome]

/-! ### FAULT_READ -/

/-- Whether a bank's record is valid and names a subject. -/
def Bank.subjectPresent (b : Bank) : Bool :=
  match b.record with
  | none => false
  | some r => r.subject.isSome

/-- Whether a bank's record was made before a restart. -/
def Bank.beforeRestart (b : Bank) : Bool :=
  match b.record with
  | none => false
  | some r => r.beforeRestart

/-- Offset 1: one bank's flags. -/
def Bank.readFlags (b : Bank) : Nat :=
  flagBits [b.record.isSome, b.overflow, b.hold.isSome, b.thresholdReached, b.beforeRestart, b.noticeCorrectable,
            b.noticeDeferred, b.subjectPresent]

end Sys2Proof.Machine
end

