-- ==== Sys2Proof/Machine/Layouts.lean ====
section
/-! DEFINITION. The frame (R172), the notices and the read replies as payload bytes (R189 and chapter 11). A layout that
chapter 11 does not table is formed by R189's general rule from the fields of its owning rule (log 17). -/

namespace Sys2Proof.Machine

/-! ### Fields -/

/-- A presence byte and a value at its width, 0 when absent (R189). -/
def withPresence (put : Nat → List Byte) (v : Option Nat) : List Byte := beBool v.isSome ++ put (v.getD 0)

/-- A presence byte and a signed four-byte value, 0 when absent (R189). -/
def withPresence4s (v : Option Int) : List Byte := beBool v.isSome ++ be4s (v.getD 0)

/-- A list: its count and its entries (R189). -/
def listBytes {α : Type} (put : α → List Byte) (l : List α) : List Byte := be1 l.length ++ l.flatMap put

/-- A bitmap byte. -/
def maskByte (m : BitVec 8) : List Byte := [m]

/-! ### The frame (R172) -/

/-- A frame's LEN, KIND, TAG and payload, over which its CRC is formed (R172). -/
def Frame.body (f : Frame) : List Byte := be1 (f.payload.length + 2) ++ f.kind :: f.tag :: f.payload

/-- A frame's bytes on the line (R172). -/
def Frame.wire (f : Frame) : List Byte := 0xC3 :: (f.body ++ halfBytes (crc16 f.body))

/-! ### Records that several layouts share -/

/-- A move slot: number, kind with operand, origin, status, target, arrival error, cause (R44); all 0 when EMPTY. -/
def moveBytes (m : Option Move) : List Byte :=
  match m with
  | none => List.replicate 16 0
  | some m =>
    be2 m.number ++ be1 m.kind.codes.1 ++ be1 m.kind.codes.2 ++ be1 m.origin.code ++ be1 m.status.code ++ be4 m.target
      ++ withPresence4s m.arrivalError ++ be1 (moveCauseCode m.cause)

/-- Source and key of a hold entry; key 0 is a key, so a presence byte goes before it (R136, R189). -/
def holdIdBytes (id : HoldId) : List Byte := be1 id.codes.1 ++ withPresence be1 id.codes.2

/-! ### Notices -/

/-- KIND of a notice, 0x80 to 0x90 in the order of the notice list (chapter 11, Kinds). -/
def Notice.kind : Notice → Nat
  | .levelChanged .. => 0x80
  | .windLevel .. => 0x81
  | .groupAdmitted .. => 0x82
  | .cabinDeparted .. => 0x83
  | .cabinDoorHold .. => 0x84
  | .cabinCall .. => 0x85
  | .cabinService .. => 0x86
  | .queueHalf .. => 0x87
  | .queueFull .. => 0x88
  | .queueEmpty .. => 0x89
  | .moveStatus .. => 0x8A
  | .trialDone .. => 0x8B
  | .trip .. => 0x8C
  | .faultLogged .. => 0x8D
  | .threshold .. => 0x8E
  | .inputFactor .. => 0x8F
  | .bringHomeComplete .. => 0x90

/-- CABIN_SERVICE's cause and fault code. -/
def ServiceCause.codes : ServiceCause → Nat × Nat
  | .fault c => (1, c.number)
  | .requalified => (2, 0)
  | .request => (3, 0)

/-- TRIAL_DONE: a completed record carries status, v0, counts, a_meas, outcome and a_eff (R57); an aborted one status, cause,
v0, counts and a_eff (R58). -/
def trialDoneBytes (t : Trial) : List Byte :=
  if t.status = .aborted then
    be1 t.status.code ++ be1 (trialAbortCode t.abortCause) ++ be2s (t.v0.getD 0) ++ be4s (t.counts.getD 0)
      ++ be1 (t.aEffAfter.getD 0)
  else
    be1 t.status.code ++ be2s (t.v0.getD 0) ++ be4s (t.counts.getD 0) ++ be2 (t.aMeas.getD 0)
      ++ be1 (trialOutcomeCode t.outcome) ++ be1 (t.aEffAfter.getD 0)

/-- Payload of a notice: the fields of its rule in the rule's order (R189; log 17, which names TRIP's reference state as a
boolean byte and INPUT_FACTOR's filtered values as a mask byte). -/
def Notice.payload : Notice → List Byte
  | .levelChanged new previous id change level entries clock =>
    be1 new.code ++ be1 previous.code ++ holdIdBytes id ++ be1 change.code ++ be1 (levelCode level) ++ be1 entries
      ++ be4 clock
  | .windLevel new hold previous cause gust mean valid operative clock =>
    be1 new.code ++ be1 hold.code ++ withPresence be1 (previous.map WindLevel.code) ++ be1 cause.code ++ be2 gust
      ++ be2 mean ++ be1 valid ++ be1 operative.number ++ be4 clock
  | .groupAdmitted cabin m left =>
    be1 cabin ++ be2 m.id ++ be1 m.size ++ be2 m.mass ++ beBool m.accessible ++ be4 m.admitted ++ be1 left
  | .cabinDeparted cabin group result release lock clock =>
    be1 cabin ++ be2 (group.getD 0) ++ be1 (passResultCodes result).1 ++ be1 (passResultCodes result).2
      ++ withPresence be4 release ++ withPresence be4 lock ++ be4 clock
  | .cabinDoorHold cabin door node remaining clock =>
    be1 cabin ++ be1 door.code ++ be1 node.code ++ be4s remaining ++ be4 clock
  | .cabinCall cabin door load phase clock =>
    be1 cabin ++ be1 door.code ++ be2 load ++ be1 phase.code ++ be4 clock
  | .cabinService cabin service count cause =>
    be1 cabin ++ be1 service.code ++ be1 count ++ be1 cause.codes.1 ++ be1 cause.codes.2
  | .queueHalf count clock => be1 count ++ be4 clock
  | .queueFull count clock => be1 count ++ be4 clock
  | .queueEmpty count clock => be1 count ++ be4 clock
  | .moveStatus slot record => be1 slot.code ++ moveBytes record
  | .trialDone record => trialDoneBytes record
  | .trip rotation vCmd speed angle referenced clock =>
    be1 rotation.code ++ be4 vCmd ++ be2s speed ++ be4 angle ++ beBool referenced ++ be4 clock
  | .faultLogged code subject angle time disposition counter overflow hold =>
    be1 code.bank.number ++ be1 code.number ++ be1 code.cls.code ++ be1 code.scope.code ++ be1 (actionCode code.action)
      ++ withPresence be1 subject ++ be4 angle ++ be4 time ++ be1 disposition.code ++ be2 counter ++ beBool overflow
      ++ beBool hold.isSome ++ be1 (actionCode hold)
  | .threshold bank counter limit code subject clock =>
    be1 bank.number ++ be2 counter ++ be2 limit ++ be1 code.number ++ withPresence be1 subject ++ be4 clock
  | .inputFactor group cause filtered select expected level clock =>
    be1 group.number ++ be1 cause.codes.1 ++ withPresence be1 cause.codes.2 ++ maskByte filtered ++ maskByte select
      ++ maskByte expected ++ be1 level.code ++ be4 clock
  | .bringHomeComplete angle clock => be4 angle ++ be4 clock

/-- A notice as a frame, its TAG 0 (R177). -/
def Notice.frame (n : Notice) : Frame := { kind := BitVec.ofNat 8 n.kind, tag := 0, payload := n.payload }

/-- What a transmitter sends, as bytes on the line. -/
def Outgoing.wire : Outgoing → List Byte
  | .reply f => f.wire
  | .notice n => n.frame.wire

/-! ### STATUS (11.3) -/

/-- Origin and cabin or slot of the limiting entry, 0 unless CURVE. -/
def LimitingTerm.origin : LimitingTerm → Nat × Nat
  | .curve o => o.codes
  | .runOff => (0, 0)
  | .level => (0, 0)
  | .unreferenced => (0, 0)
  | .platform => (0, 0)
  | .held => (0, 0)

/-- One limit-point entry of STATUS. -/
def limitBytes (e : LimitPoint) : List Byte :=
  be1 e.origin.codes.1 ++ be1 e.origin.codes.2 ++ be4 e.line ++ be2 e.limitSpeed ++ be4s e.remaining ++ be1 e.flags

/-- Transaction in flight: cabin, command, try. -/
def flightBytes (t : Option Transaction) : List Byte :=
  match t with
  | none => be1 0 ++ be1 0 ++ be1 0
  | some t => be1 t.cabin ++ be1 t.command.code ++ be1 (if t.retry then 2 else 1)

/-- Boarding move: cabin, move number, last status handed over. -/
def boardingMoveBytes (b : Option BoardingMove) : List Byte :=
  match b with
  | none => be1 0 ++ be2 0 ++ be1 0
  | some b => be1 b.cabin ++ be2 b.number ++ be1 b.status.code

/-- Class of a bank's record, 0 when it is empty. -/
def Bank.recordClass (b : Bank) : Nat :=
  match b.record with
  | none => 0
  | some r => r.code.cls.code

/-- One bank of STATUS. -/
def bankStatusBytes (b : Bank) : List Byte := be1 b.statusFlags ++ be1 (actionCode b.hold) ++ be1 b.recordClass

/-- One port of STATUS: flags, and the milliseconds since the presence timer started while it runs. -/
def portStatusBytes (s : State) (p : Port) : List Byte := be1 (s.portFlags p) ++ be2 (((s.port p).presence.map PresenceTimer.elapsed).getD 0)

/-- How many cabins 1..N have a service state. -/
def State.serviceCount (s : State) (v : Service) : Nat :=
  (s.cfs.geometry.cabins.filter fun k => decide ((s.cabin k).service = v)).length

/-- How many nodes 1..N are SILENT. -/
def State.silentCount (s : State) : Nat :=
  (s.cfs.geometry.cabins.filter fun k => decide ((s.node k).state = .silent)).length

/-- N the mounting-angle table is built for, 0 for NOT_BUILT. -/
def State.anglesBuilt (s : State) : Nat :=
  match s.bsq.angles with
  | none => 0
  | some t => t.length

/-- The imbalance B in kg (R116). -/
def State.imbalance (s : State) : Nat := isqrt s.bsq.sumQ.toNat / 4096

/-- STATUS, offsets 0 to 29: device, position, rotation. The drive reference word is that of the latest control
update (R43). -/
def statusWheel (s : State) : List Byte :=
  be1 s.cfs.device.code ++ be4 s.cfs.clock ++ be1 s.deviceFlags ++ be4 s.ptr.angle ++ be2s s.ptr.speed ++ be1 s.ptr.flags
    ++ be1 s.roc.rotation.code ++ be1 s.roc.flags ++ be1 s.roc.lines ++ be4 s.roc.vCmd ++ be2 s.roc.updateRef
    ++ be2 s.roc.target ++ be1 s.roc.limiting.code ++ be1 s.roc.limiting.origin.1 ++ be1 s.roc.limiting.origin.2
    ++ be1 s.roc.aEff ++ be1 s.roc.tracking ++ be1 s.roc.limits.length

/-- The six bytes of the window list's field. -/
def windowBytes (s : State) : List Byte := be2 (s.windowBits / 4294967296) ++ be4 s.windowBits

/-- STATUS, offsets 30 to 43: the ring. -/
def statusRing (s : State) : List Byte :=
  be1 (if s.cru.running then 2 else 1) ++ flightBytes s.cru.flight ++ be1 s.cru.nextSlot.code
    ++ be1 (s.cru.windowPointer.getD 0) ++ be1 s.cru.roundPointer ++ windowBytes s ++ be1 s.silentCount

/-- STATUS, offsets 44 to 66: boarding and balance. -/
def statusBoarding (s : State) : List Byte :=
  be1 (s.bsq.slowTarget.getD 0) ++ boardingMoveBytes s.bsq.boardingMove ++ be1 (s.bsq.gate.getD 0)
    ++ be1 s.boardingFlags ++ be1 (s.serviceCount .inService) ++ be1 (s.serviceCount .suspect)
    ++ be1 (s.serviceCount .outOfService) ++ be1 s.anglesBuilt ++ be4s s.bsq.sumX ++ be4s s.bsq.sumY ++ be4 s.imbalance

/-- STATUS, offsets 67 to 93: wind, holds, banks, ports. -/
def statusRest (s : State) : List Byte :=
  be1 s.wmn.level.code ++ be1 s.wmn.operative.number ++ be1 s.wmn.channels.validCount ++ be1 s.hlu.effective.code
    ++ be1 s.hlu.other.code ++ be1 s.hlu.entries.length ++ allBanks.flatMap (fun b => bankStatusBytes (s.bank b))
    ++ portStatusBytes s .p1 ++ portStatusBytes s .p2

/-- STATUS reply payload (11.3, R182). -/
def statusPayload (s : State) : List Byte :=
  statusWheel s ++ statusRing s ++ statusBoarding s ++ statusRest s ++ s.roc.limits.flatMap limitBytes

/-! ### CABIN_READ (11.4) and QUEUE_READ (R110) -/

/-- The manifest of CABIN_READ. -/
def manifestBytes (m : Option Manifest) : List Byte :=
  match m with
  | none => List.replicate 10 0
  | some m => be2 m.id ++ be1 m.size ++ be2 m.mass ++ beBool m.accessible ++ be4 m.admitted

/-- CABIN_READ reply payload (11.4). -/
def cabinPayload (k : Nat) (s : State) : List Byte :=
  let c := s.cabin k
  let n := s.node k
  be1 k ++ be1 c.phase.code ++ be1 c.service.code ++ be1 c.suspectCount ++ be1 c.flags ++ be1 n.flags
    ++ manifestBytes c.manifest ++ be1 (passResultCodes c.lastPass).1 ++ be1 (passResultCodes c.lastPass).2
    ++ be4 (c.releaseTime.getD 0) ++ be4 (c.lockTime.getD 0) ++ be1 n.state.code ++ be1 n.door.code ++ be2 n.load
    ++ be1 (pendingCode n.pending) ++ be4 (n.lastAnswer.getD 0)

/-- One record of QUEUE_READ. -/
def groupBytes (s : State) (position : Nat) (g : Group) : List Byte :=
  be1 position ++ be2 g.id ++ be1 g.size ++ be2 (s.partyMass g) ++ be1 g.source.code ++ beBool g.accessible ++ be4 g.accepted

/-- QUEUE_READ reply payload: the count, and up to 16 records from a position on (R110). -/
def queuePayload (first : Nat) (s : State) : List Byte :=
  let records := (s.bsq.queue.drop (first - 1)).take 16
  be1 s.bsq.queue.length ++ listBytes (fun r => groupBytes s (first + r.2) r.1) records.zipIdx

/-! ### HOLD_LIST (R142), MOVE_READ (R53), TRIAL_READ (R54) -/

/-- One entry of HOLD_LIST. -/
def holdBytes (position : Nat) (e : HoldEntry) : List Byte :=
  be1 position ++ holdIdBytes e.id ++ be1 e.level.code ++ be4 e.time

/-- HOLD_LIST reply payload (R142). -/
def holdListPayload (s : State) : List Byte :=
  be1 s.hlu.entries.length ++ be1 s.hlu.effective.code ++ be1 s.hlu.other.code
    ++ listBytes (fun e => holdBytes (e.2 + 1) e.1) s.hlu.entries.zipIdx

/-- Remaining travel of the MOVE entry, while slot A is ACTIVE or ARRIVED (R53). -/
def State.moveEntryTravel (s : State) : Option Int := if s.occupiedA then (s.limit .move).map (·.remaining) else none

/-- MOVE_READ reply payload (R53). -/
def movePayload (s : State) : List Byte :=
  moveBytes s.mvu.slotA ++ moveBytes s.mvu.slotB ++ withPresence4s s.moveEntryTravel
    ++ be2 (if s.occupiedA then s.cfs.boarding.tStop else 0) ++ be2 (if s.occupiedA then s.mvu.nextNumber else 0)

/-- TRIAL_READ reply payload (R54). -/
def trialPayload (s : State) : List Byte :=
  let t := s.mvu.trial
  be1 t.status.code ++ be2s (t.v0.getD 0) ++ withPresence4s t.counts ++ withPresence be4 t.distance
    ++ withPresence be2 t.aMeas ++ withPresence be2 t.aCand ++ be1 (trialOutcomeCode t.outcome) ++ be1 (t.aEffAfter.getD 0)
    ++ be1 (trialAbortCode t.abortCause) ++ withPresence be4 t.startTime ++ withPresence be4 t.endTime ++ be1 s.roc.aEff

/-! ### WIND_READ (R133), INPUTS_READ (R150) -/

/-- One channel of WIND_READ. -/
def channelBytes (c : ChannelRec) : List Byte :=
  beBool c.enable ++ be2 c.kc ++ be1 c.validity.code ++ listBytes be2 c.ring ++ be2 c.gust ++ be2 c.mean
    ++ beBool c.initialised ++ beBool c.clamped ++ be1 c.zeroRun ++ be1 c.recoveryRun

/-- A profile of WIND_READ. -/
def profileBytes (p : Profile) : List Byte := p.values.flatMap be2

/-- Samples left before the calm timer expires under the operative calm period, the whole of it at CALM (R133; log 42). -/
def Wmn.calmLeft (w : Wmn) : Nat := 4 * w.profileInForce.calmPeriod - w.calm

/-- The conditions that gave the floor level: those whose own floor it is (R125, R133; log 43). -/
def FloorConds.gave (f : FloorConds) : FloorConds := { f with oneValid := f.oneValid && f.level == .breeze }

/-- WIND_READ reply payload (R133); the channels come without a count byte (log 44), the floor conditions as three boolean
bytes (log 43). -/
def windPayload (s : State) : List Byte :=
  let w := s.wmn
  let e := s.hold .wind
  allChannels.flatMap (fun ch => channelBytes (w.channels.get ch)) ++ profileBytes w.profile0 ++ profileBytes w.profile1
    ++ be1 w.operative.number ++ be1 w.level.code ++ be1 w.warranted.code ++ be1 w.floorLevel.code
    ++ beBool w.floorConds.gave.noValid ++ beBool w.floorConds.gave.oneValid ++ beBool w.floorConds.gave.warmUp
    ++ be2 w.calm ++ beBool w.calmRuns ++ be2 w.calmLeft ++ be1 w.warmUp ++ beBool w.noValid ++ be2 w.gust ++ be2 w.mean
    ++ beBool e.isSome ++ be1 (levelCode (e.map (·.level)))

/-- Code of a match state. -/
def matchCode (m : Bool) : Nat := if m then 1 else 2

/-- One input of INPUTS_READ. -/
def inputBytes (i : Input) : List Byte := beBool i.raw ++ beBool i.filtered ++ beBool i.timer.isSome

/-- One group of INPUTS_READ. -/
def inputGroupBytes (s : State) (g : GroupId) : List Byte :=
  let v := s.group g
  let e := s.hold (.inputs g)
  maskByte v.select ++ maskByte v.expected ++ be1 v.level.code ++ beBool v.noticeEnable ++ be1 (matchCode v.isMatch)
    ++ beBool v.factor ++ beBool e.isSome ++ be1 (levelCode (e.map (·.level)))

/-- INPUTS_READ reply payload (R150), its inputs and groups without a count byte (log 44). -/
def inputsPayload (s : State) : List Byte :=
  s.pim.inputs.flatMap inputBytes ++ inputGroupBytes s .g0 ++ inputGroupBytes s .g1

/-! ### FAULT_READ (11.5) -/

/-- Code, class, scope, action, subject, angle and time of a record; all 0 when it is empty. -/
def recordBytes (r : Option FaultRecord) : List Byte :=
  match r with
  | none => List.replicate 13 0
  | some r =>
    be1 r.code.number ++ be1 r.code.cls.code ++ be1 r.code.scope.code ++ be1 (actionCode r.code.action)
      ++ be1 (r.subject.getD 0) ++ be4 r.angle ++ be4 r.time

/-- One bank of FAULT_READ (11.5). -/
def bankBytes (id : BankId) (b : Bank) : List Byte :=
  be1 id.number ++ be1 b.readFlags ++ be1 (actionCode b.hold) ++ recordBytes b.record ++ be2 b.counter ++ be2 b.threshold
    ++ be4 b.mask.toNat

/-- FAULT_READ reply payload of a list of banks (11.5). -/
def faultPayload (banks : List BankId) (s : State) : List Byte := listBytes (fun b => bankBytes b (s.bank b)) banks

end Sys2Proof.Machine
end

