-- ==== Sys2Proof/Machine/ConfigStore.lean ====
section
/-! DEFINITION. The configuration tables (R179 to R181): the entries and their values, CONFIG_GET, and CONFIG_SET with its
judgement and the effect that each table's rule gives a write. -/

namespace Sys2Proof.Machine

/-! ### Tables and entries -/

/-- The ten tables, numbered 1 to 10 in this order (R189). -/
inductive Table where
  | geometry
  | zones
  | speeds
  | ring
  | boarding
  | balance
  | windChannels
  | inputs
  | faultCtl
  | link
  deriving DecidableEq, Repr

/-- The table with a number (R180 step 1). -/
def Table.ofNumber : Nat → Option Table
  | 1 => some .geometry
  | 2 => some .zones
  | 3 => some .speeds
  | 4 => some .ring
  | 5 => some .boarding
  | 6 => some .balance
  | 7 => some .windChannels
  | 8 => some .inputs
  | 9 => some .faultCtl
  | 10 => some .link
  | _ => none

/-- Number of a table (R189). -/
def Table.number : Table → Nat
  | .geometry => 1
  | .zones => 2
  | .speeds => 3
  | .ring => 4
  | .boarding => 5
  | .balance => 6
  | .windChannels => 7
  | .inputs => 8
  | .faultCtl => 9
  | .link => 10

/-- One entry of a table: the channel, group, bank or port an index names, where the table has an index (R180). -/
inductive Entry where
  | geometry
  | zones
  | speeds
  | ring
  | boarding
  | balance
  | windChannel (channel : Channel)
  | inputGroup (group : GroupId)
  | faultBank (bank : BankId)
  | linkPort (port : Port)
  deriving DecidableEq, Repr

/-- An index of 0 for a table without one. -/
def unindexed (e : Entry) (index : Nat) : Option Entry := if index = 0 then some e else none

/-- The entry that an index names in a table (R180 step 2). -/
def Table.entry (t : Table) (index : Nat) : Option Entry :=
  match t with
  | .geometry => unindexed .geometry index
  | .zones => unindexed .zones index
  | .speeds => unindexed .speeds index
  | .ring => unindexed .ring index
  | .boarding => unindexed .boarding index
  | .balance => unindexed .balance index
  | .windChannels => (channelOfNumber index).map .windChannel
  | .inputs => (GroupId.ofNumber index).map .inputGroup
  | .faultCtl => (BankId.ofNumber index).map .faultBank
  | .link => if index = 1 then some (.linkPort .p1) else if index = 2 then some (.linkPort .p2) else none

/-- Tables written in CONFIG only (R180 step 3). -/
def Table.configOnly : Table → Bool
  | .geometry | .zones | .speeds | .ring => true
  | .boarding | .balance | .windChannels | .inputs | .faultCtl | .link => false

/-- A value's field: its width on the line in bytes, whether it is signed, and its range. -/
structure Field where
  width : Nat
  low : Int
  high : Int
  deriving DecidableEq, Repr

/-- A field of a width and range. -/
def field (width : Nat) (low high : Int) : Field := { width := width, low := low, high := high }

/-- The fields of a table's entry, in the order of the value numbers (R1, R2, R19, R59, R179, R78, R48, R113, R117, R145,
R160, R151). A presence level is one of SLOW to STOP. -/
def Table.fields : Table → List Field
  | .geometry => [field 1 12 48, field 2 256 65535, field 2 1 65535, field 4 0 4194303, field 2 1 4095]
  | .zones =>
    [field 4 (-262144) 262143, field 4 (-262144) 262143, field 4 (-262144) 262143, field 4 (-262144) 262143,
     field 2 1 65535]
  | .speeds =>
    [field 2 20 600, field 2 20 600, field 2 20 600, field 2 20 600, field 2 20 600, field 1 5 200, field 1 10 200,
     field 1 5 200, field 2 0 2000, field 1 5 200, field 1 5 120]
  | .ring => [field 1 5 100, field 1 1 10]
  | .boarding => [field 2 0 4000, field 1 1 40, field 2 1 4000, field 1 1 15, field 2 1 512, field 1 40 150]
  | .balance => [field 2 1 20000, field 2 1 20000, field 2 1 20000]
  | .windChannels => [field 1 0 1, field 2 0 65535]
  | .inputs => [field 1 0 255, field 1 0 255, field 1 0 5, field 1 0 1]
  | .faultCtl => [field 2 0 4095, field 1 0 1, field 1 0 1]
  | .link => [field 1 0 60, field 1 1 4]

/-- A flag as a value. -/
def boolValue (b : Bool) : Int := if b then 1 else 0

/-- The values of an entry as they stand, in the order of the value numbers (R181). -/
def State.values (s : State) : Entry → List Int
  | .geometry =>
    let g := s.cfs.geometry
    [g.n, g.p, g.u, g.iRef, g.tIdx]
  | .zones =>
    let z := s.cfs.zones
    [z.a, z.d, z.c, z.x, z.o]
  | .speeds =>
    let v := s.cfs.speeds
    [v.cruise, v.board, v.capSlow, v.capNoBoard, v.capUnloadOnly, v.aAcc, v.aCfg, v.aMin, v.margin, v.trackLim, v.tStand]
  | .ring => [s.cfs.ring.tNode, s.cfs.ring.tCloseMax]
  | .boarding =>
    let b := s.cfs.boarding
    [b.empty, b.capacity, b.maxLoad, b.k, b.tStop, b.perPerson]
  | .balance => [s.cfs.balance.lim, s.cfs.balance.warn, s.cfs.balance.clear]
  | .windChannel c => [boolValue (s.channel c).enable, (s.channel c).kc]
  | .inputGroup g =>
    let v := s.group g
    [v.select.toNat, v.expected.toNat, v.level.code, boolValue v.noticeEnable]
  | .faultBank b =>
    let v := s.bank b
    [v.threshold, boolValue v.noticeCorrectable, boolValue v.noticeDeferred]
  | .linkPort p => [(s.port p).presenceTime, (s.port p).presenceLevel.code]

/-- One value at its field's width (R189). -/
def fieldBytes (f : Field) (v : Int) : List Byte :=
  match f.width with
  | 1 => be1 v.toNat
  | 2 => be2 v.toNat
  | _ => be4s v

/-- An entry's values as payload bytes; GEOMETRY's are followed by the derived CPR where asked for (R180, R181). -/
def valueBytes (t : Table) (values : List Int) : List Byte :=
  (List.zipWith fieldBytes t.fields values).flatten

/-- Payload of a CONFIG_GET reply (R181). -/
def configPayload (t : Table) (e : Entry) (s : State) : List Byte :=
  valueBytes t (s.values e) ++ (if t = .geometry then be4 s.cfs.geometry.cpr else [])

/-! ### The judgement of a write (R180) -/

/-- A value as its table reads it: signed for ZONES (R189). -/
def Table.read (t : Table) (q : Quad) : Int := if t = .zones then q.toInt else q.toNat

/-- Step 4: the first value number, by its place from 0, that the entry does not hold or that stands a second time. -/
def numberFailure (count : Nat) : Nat → List Nat → List Nat → Option Nat
  | _, _, [] => none
  | i, seen, n :: ns =>
    if n = 0 ∨ count < n ∨ n ∈ seen then some i else numberFailure count (i + 1) (n :: seen) ns

/-- Step 5: the first value, by its place from 0, outside its field range. -/
def rangeFailure (fields : List Field) : Nat → List (Nat × Int) → Option Nat
  | _, [] => none
  | i, (n, v) :: rest =>
    let f := nth fields n (field 1 0 0)
    if f.low ≤ v ∧ v ≤ f.high then rangeFailure fields (i + 1) rest else some i

/-- An entry's values with a list of new ones in place. -/
def withValues (values : List Int) (list : List (Nat × Int)) : List Int :=
  list.foldl (fun vs p => setNth vs p.1 p.2) values

/-- The field index of a value number's place in the list, and of its value (R189). -/
def numberField (i : Nat) : Nat := 2 * i + 3

/-- The field index of the i-th value, i from 0 (R189). -/
def valueField (i : Nat) : Nat := 2 * i + 4

/-- The place of the first of some value numbers in the list. -/
def placeOf (numbers : List Nat) (list : List (Nat × Int)) : Option Nat := list.findIdx? fun p => p.1 ∈ numbers

/-- The field index that a refusal of the relation a_min <= a_cfg names: the first of the two in the list (R19). -/
def speedsField (list : List (Nat × Int)) : Nat := valueField ((placeOf [7, 8] list).getD 0)

/-- The field index that a refusal naming Kc carries: its place in the list, and a free value when the request does not write
it (R117; log 15). -/
def kcField (index : Byte) (raw : List (Byte × Quad)) (list : List (Nat × Int)) : Nat :=
  match placeOf [2] list with
  | some i => valueField i
  | none => (Config.unnamedKcFieldIndex index raw).toNat

/-- Step 6: the field that a broken relation of the write names; values are the entry as it would stand (R19, R113, R117). -/
def relationFailure (t : Table) (index : Byte) (raw : List (Byte × Quad)) (list : List (Nat × Int)) (values : List Int) :
    Option Nat :=
  match t with
  | .speeds => if nth values 8 0 ≤ nth values 7 0 then none else some (speedsField list)
  | .balance =>
    if nth values 3 0 < nth values 2 0 ∧ nth values 2 0 ≤ nth values 1 0 then none else some (valueField 0)
  | .windChannels =>
    if nth values 1 0 = 1 ∧ nth values 2 0 = 0 then some (kcField index raw list) else none
  | .geometry | .zones | .ring | .boarding | .inputs | .faultCtl | .link => none

/-- A judged CONFIG_SET: refused, or the entry and the values it takes. -/
inductive ConfigJudgement where
  | refused (reason : Reason) (field : Nat)
  | accepted (table : Table) (entry : Entry) (list : List (Nat × Int)) (values : List Int)
  deriving DecidableEq, Repr

/-- Steps 4 to 6 of the judgement (R180). -/
def judgeValues (t : Table) (e : Entry) (index : Byte) (raw : List (Byte × Quad)) (s : State) : ConfigJudgement :=
  let list := raw.map fun p => (p.1.toNat, t.read p.2)
  match numberFailure t.fields.length 0 [] (list.map (·.1)) with
  | some i => .refused .badField (numberField i)
  | none =>
    match rangeFailure t.fields 0 list with
    | some i => .refused .badField (valueField i)
    | none =>
      let values := withValues (s.values e) list
      match relationFailure t index raw list values with
      | some f => .refused .badField f
      | none => .accepted t e list values

/-- The judgement of a CONFIG_SET (R180). -/
def judgeConfig (table index : Byte) (raw : List (Byte × Quad)) (s : State) : ConfigJudgement :=
  match Table.ofNumber table.toNat with
  | none => .refused .badField 1
  | some t =>
    match t.entry index.toNat with
    | none => .refused .badField 2
    | some e =>
      if t.configOnly && s.cfs.device == .service then .refused .wrongState 0
      else judgeValues t e index raw s

/-! ### Effects of a write -/

/-- A value of an entry, by its number, as a natural number. -/
def natValue (values : List Int) (n : Nat) : Nat := (nth values n 0).toNat

/-- A value of an entry as a flag. -/
def boolOf (values : List Int) (n : Nat) : Bool := nth values n 0 == 1

/-- The node records of an accepted GEOMETRY write, and the ring stopped with no transaction (R68, R76); pointers and slot
kind stay (log 38). -/
def Cru.geometryWritten (c : Cru) : Cru :=
  { c with running := false, flight := none, nodes := List.replicate maxCabins .cold }

/-- A cabin record after a GEOMETRY write that changes N: those above the smaller of the two N take cold values, except their
manifests (R101). -/
def renumbered (keep : Nat) (cabins : List Cabin) : List Cabin :=
  cabins.take keep ++ (cabins.drop keep).map fun c => { Cabin.cold with manifest := c.manifest }

/-- A GEOMETRY write: Position Tracker (R1), ring (R68, R76), cabin records (R101), table and sums (R111, R112); the sums
and the balance entry come before SLOW and bring-home (log 41). -/
def geometryWrite (g : Geometry) (s : State) : State :=
  let before := s
  let cabins :=
    if g.n = s.cfs.geometry.n then s.bsq.cabins else renumbered (min g.n s.cfs.geometry.n) s.bsq.cabins
  let s := { s with
    cfs := { s.cfs with geometry := g }
    ptr := { s.ptr with
      referenced := false, angle := 0, latch := none, passRecords := List.replicate maxCabins none }
    cru := s.cru.geometryWritten
    bsq := { s.bsq with cabins := cabins, angles := none } }
  settleCabins before (formSums s)

/-- A BOARDING write; what follows from a new empty threshold is judged at once (R78, R81, R98; log 13). -/
def boardingWrite (b : BoardingTable) (s : State) : State :=
  settleCabins s { s with cfs := { s.cfs with boarding := b } }

/-- A LINK write: the presence timer and the LINK entry (R151). A time of 0 stops the timer, another starts it again in
SERVICE while the entry is absent, and in every other case a running timer keeps the time toward which it runs. -/
def linkWrite (p : Port) (time : Nat) (level : Level) (timeWritten levelWritten : Bool) (s : State) : State :=
  let q := { s.port p with presenceTime := time, presenceLevel := level }
  let present := (s.hold (.link p)).isSome
  let restart := timeWritten && time != 0 && s.cfs.device == .service && !present
  let s := setPort p (if timeWritten && time == 0 then q.presenceStopped else if restart then q.presenceStarted else q) s
  if timeWritten && time == 0 then holdRemove (.link p) s
  else if levelWritten && present then holdInsert (.link p) level s
  else s

/-- Whether a value number stands in a list. -/
def writes (n : Nat) (list : List (Nat × Int)) : Bool := list.any fun p => p.1 == n

/-- The geometry that values make. -/
def geometryOf (v : List Int) : Geometry :=
  { n := natValue v 1, p := natValue v 2, u := natValue v 3, iRef := natValue v 4, tIdx := natValue v 5 }

/-- The zones that values make. -/
def zonesOf (v : List Int) : Zones :=
  { a := nth v 1 0, d := nth v 2 0, c := nth v 3 0, x := nth v 4 0, o := natValue v 5 }

/-- The speeds that values make. -/
def speedsOf (v : List Int) : Speeds :=
  { cruise := natValue v 1, board := natValue v 2, capSlow := natValue v 3, capNoBoard := natValue v 4,
    capUnloadOnly := natValue v 5, aAcc := natValue v 6, aCfg := natValue v 7, aMin := natValue v 8,
    margin := natValue v 9, trackLim := natValue v 10, tStand := natValue v 11 }

/-- The BOARDING values that values make. -/
def boardingOf (v : List Int) : BoardingTable :=
  { empty := natValue v 1, capacity := natValue v 2, maxLoad := natValue v 3, k := natValue v 4, tStop := natValue v 5,
    perPerson := natValue v 6 }

/-- The BALANCE values that values make. -/
def balanceOf (v : List Int) : BalanceTable := { lim := natValue v 1, warn := natValue v 2, clear := natValue v 3 }

/-- A SPEEDS write: a_eff takes a_cfg (R19, R35). -/
def speedsWrite (sp : Speeds) (s : State) : State :=
  { s with cfs := { s.cfs with speeds := sp }, roc := { s.roc with aEff := sp.aCfg } }

/-- The whole effect of an accepted write (R180): the values are written together and the owning block takes the write. list
is the request's value list, values the entry after the write. -/
def configWrite (e : Entry) (list : List (Nat × Int)) (v : List Int) (s : State) : State :=
  match e with
  | .geometry => geometryWrite (geometryOf v) s
  | .zones => { s with cfs := { s.cfs with zones := zonesOf v } }
  | .speeds => speedsWrite (speedsOf v) s
  | .ring => { s with cfs := { s.cfs with ring := { tNode := natValue v 1, tCloseMax := natValue v 2 } } }
  | .boarding => boardingWrite (boardingOf v) s
  | .balance => balanceJudge { s with cfs := { s.cfs with balance := balanceOf v } }
  | .windChannel c => setChannel c ((s.channel c).written (boolOf v 1) (natValue v 2)) s
  | .inputGroup g =>
    inputsWrite g (BitVec.ofNat 8 (natValue v 1)) (BitVec.ofNat 8 (natValue v 2))
      ((Level.ofCode (natValue v 3)).getD .none) (boolOf v 4) s
  | .faultBank b =>
    setBank b
      { s.bank b with threshold := natValue v 1, noticeCorrectable := boolOf v 2, noticeDeferred := boolOf v 3 } s
  | .linkPort p =>
    linkWrite p (natValue v 1) ((Level.ofCode (natValue v 2)).getD .noBoard) (writes 1 list) (writes 2 list) s

end Sys2Proof.Machine
end

