-- ==== Sys2Proof/Machine/Operands.lean ====
section
/-! DEFINITION. The requests as frames (R172, R175, R189 and the kind table of chapter 11): the KIND of each request, its
payload, the reading of a payload, and which station may send it (R176). -/

namespace Sys2Proof.Machine

/-! ### Kinds and stations -/

/-- KIND of a request (kind table of chapter 11). -/
def requestKind : Request → Nat
  | .status => 0x01
  | .cabinRead _ => 0x02
  | .queueRead _ => 0x03
  | .holdList => 0x04
  | .moveRead => 0x05
  | .windRead => 0x06
  | .inputsRead => 0x07
  | .faultRead _ => 0x08
  | .trialRead => 0x09
  | .configGet _ _ => 0x0A
  | .configSet _ _ _ => 0x0B
  | .commission => 0x0C
  | .decommission => 0x0D
  | .restart => 0x0E
  | .run _ => 0x0F
  | .holdSet _ _ => 0x10
  | .holdRelease _ => 0x11
  | .groupAdd _ _ _ _ => 0x12
  | .groupWithdraw _ => 0x13
  | .doorRetry _ => 0x14
  | .factorClear _ => 0x15
  | .moveSubmit _ _ => 0x16
  | .moveCancel _ => 0x17
  | .moveResume _ => 0x18
  | .cabinService _ _ => 0x19
  | .windProfileWrite _ _ => 0x1A
  | .windProfileSelect _ => 0x1B
  | .faultAck _ => 0x1C
  | .faultClear _ => 0x1D
  | .counterClear _ => 0x1E
  | .faultMask _ _ _ => 0x1F
  | .decelTrialStart => 0x20
  | .clearTrip => 0x21

/-- Whether a KIND is a request kind of the catalogue (R175 step 1). -/
def isRequestKind (kind : Nat) : Bool := decide (1 ≤ kind ∧ kind ≤ 0x21)

/-- Whether the platform desk may send a request kind; the control room may send every one (R176). -/
def deskMay (kind : Nat) : Bool :=
  decide (kind ≤ 0x0A) || decide (0x10 ≤ kind ∧ kind ≤ 0x18)

/-- Whether a port may send a request kind (R175 step 2). -/
def portMay (p : Port) (kind : Nat) : Bool :=
  match p with
  | .p1 => true
  | .p2 => deskMay kind

/-! ### Payloads -/

/-- The bytes of a CONFIG_SET value list: number and value, each in its turn (R189). -/
def valueListBytes : List (Byte × Quad) → List Byte
  | [] => []
  | (n, v) :: rest => n :: (quadBytes v ++ valueListBytes rest)

/-- The bytes of a list of two-byte values. -/
def halfListBytes : List Half → List Byte
  | [] => []
  | h :: rest => halfBytes h ++ halfListBytes rest

/-- The payload of a request (kind table of chapter 11). -/
def requestPayload : Request → List Byte
  | .status => []
  | .cabinRead k => [k]
  | .queueRead n => [n]
  | .holdList => []
  | .moveRead => []
  | .windRead => []
  | .inputsRead => []
  | .faultRead b => [b]
  | .trialRead => []
  | .configGet t i => [t, i]
  | .configSet t i vs => t :: i :: valueListBytes vs
  | .commission => []
  | .decommission => []
  | .restart => []
  | .run on => [on]
  | .holdSet r l => [r, l]
  | .holdRelease r => [r]
  | .groupAdd id size mass acc => halfBytes id ++ [size] ++ halfBytes mass ++ [acc]
  | .groupWithdraw id => halfBytes id
  | .doorRetry k => [k]
  | .factorClear g => [g]
  | .moveSubmit kind operand => [kind, operand]
  | .moveCancel n => halfBytes n
  | .moveResume n => halfBytes n
  | .cabinService k d => [k, d]
  | .windProfileWrite p vs => p :: halfListBytes vs
  | .windProfileSelect p => [p]
  | .faultAck b => [b]
  | .faultClear b => [b]
  | .counterClear b => [b]
  | .faultMask b c m => [b, c, m]
  | .decelTrialStart => []
  | .clearTrip => []

/-- A CONFIG_SET value list read from its bytes; none when they are no whole number of five-byte values. -/
def readValueList : List Byte → Option (List (Byte × Quad))
  | [] => some []
  | n :: b0 :: b1 :: b2 :: b3 :: rest =>
    match readValueList rest with
    | none => none
    | some vs => some ((n, quad b0 b1 b2 b3) :: vs)
  | _ :: _ => none

/-- Two-byte values read from their bytes; none for an odd number of bytes. -/
def readHalfList : List Byte → Option (List Half)
  | [] => some []
  | a :: b :: rest =>
    match readHalfList rest with
    | none => none
    | some vs => some (half a b :: vs)
  | _ :: _ => none

/-- A request without payload. -/
def readNone (r : Request) (payload : List Byte) : Option Request :=
  match payload with
  | [] => some r
  | _ :: _ => none

/-- A request with one byte of payload. -/
def readOne (f : Byte → Request) (payload : List Byte) : Option Request :=
  match payload with
  | [a] => some (f a)
  | _ => none

/-- A request with two one-byte fields. -/
def readTwo (f : Byte → Byte → Request) (payload : List Byte) : Option Request :=
  match payload with
  | [a, b] => some (f a b)
  | _ => none

/-- A request with one two-byte field. -/
def readHalf (f : Half → Request) (payload : List Byte) : Option Request :=
  match payload with
  | [a, b] => some (f (half a b))
  | _ => none

/-- CONFIG_SET: 2 + 5m bytes, m from 1 to 39 (R189). -/
def readConfigSet (payload : List Byte) : Option Request :=
  match payload with
  | t :: i :: rest =>
    match readValueList rest with
    | none => none
    | some vs => if 1 ≤ vs.length ∧ vs.length ≤ 39 then some (.configSet t i vs) else none
  | _ => none

/-- GROUP_ADD: six bytes (11.2). -/
def readGroupAdd (payload : List Byte) : Option Request :=
  match payload with
  | [a, b, size, c, d, acc] => some (.groupAdd (half a b) size (half c d) acc)
  | _ => none

/-- WIND_PROFILE_WRITE: 35 bytes, the profile and seventeen two-byte values. -/
def readProfileWrite (payload : List Byte) : Option Request :=
  match payload with
  | [] => none
  | p :: rest =>
    match readHalfList rest with
    | none => none
    | some vs => if vs.length = 17 then some (.windProfileWrite p vs) else none

/-- FAULT_MASK: three bytes. -/
def readFaultMask (payload : List Byte) : Option Request :=
  match payload with
  | [b, c, m] => some (.faultMask b c m)
  | _ => none

/-- The request that a KIND and a payload make; none when the payload's length does not fit the kind (R175 step 3, R189). -/
def readRequest (kind : Nat) (payload : List Byte) : Option Request :=
  match kind with
  | 0x01 => readNone .status payload
  | 0x02 => readOne .cabinRead payload
  | 0x03 => readOne .queueRead payload
  | 0x04 => readNone .holdList payload
  | 0x05 => readNone .moveRead payload
  | 0x06 => readNone .windRead payload
  | 0x07 => readNone .inputsRead payload
  | 0x08 => readOne .faultRead payload
  | 0x09 => readNone .trialRead payload
  | 0x0A => readTwo .configGet payload
  | 0x0B => readConfigSet payload
  | 0x0C => readNone .commission payload
  | 0x0D => readNone .decommission payload
  | 0x0E => readNone .restart payload
  | 0x0F => readOne .run payload
  | 0x10 => readTwo .holdSet payload
  | 0x11 => readOne .holdRelease payload
  | 0x12 => readGroupAdd payload
  | 0x13 => readHalf .groupWithdraw payload
  | 0x14 => readOne .doorRetry payload
  | 0x15 => readOne .factorClear payload
  | 0x16 => readTwo .moveSubmit payload
  | 0x17 => readHalf .moveCancel payload
  | 0x18 => readHalf .moveResume payload
  | 0x19 => readTwo .cabinService payload
  | 0x1A => readProfileWrite payload
  | 0x1B => readOne .windProfileSelect payload
  | 0x1C => readOne .faultAck payload
  | 0x1D => readOne .faultClear payload
  | 0x1E => readOne .counterClear payload
  | 0x1F => readFaultMask payload
  | 0x20 => readNone .decelTrialStart payload
  | 0x21 => readNone .clearTrip payload
  | _ => none

end Sys2Proof.Machine
end

