-- ==== Sys2Proof/Machine/Requests.lean ====
section
/-! DEFINITION. What each request of the catalogue does and answers (R176 and the owning rules): one function per request,
which accepts with a payload and a state, or refuses with a reason and a field index. The link ports put the KIND and the
TAG to it. -/

namespace Sys2Proof.Machine

/-- What a request handed to its owning block comes to. A refused request leaves the state as it was (R176). -/
inductive Answer where
  | accepted (payload : List Byte) (s : State)
  | refused (reason : Reason) (field : Nat)
  deriving DecidableEq, Repr

/-- A refusal that names a field. -/
def badField (field : Nat) : Answer := .refused .badField field

/-- The refusal WRONG_STATE. -/
def wrongState : Answer := .refused .wrongState 0

/-- A cabin number lies in 1..N. -/
def Geometry.hasCabin (g : Geometry) (k : Nat) : Bool := decide (1 ≤ k ∧ k ≤ g.n)

/-! ### Read requests -/

/-- STATUS: the reply is formed first, then the sending port's notice-lost flag is cleared (R182). -/
def answerStatus (p : Port) (s : State) : Answer :=
  .accepted (statusPayload s) (setPort p { s.port p with noticeLost := false } s)

/-- CABIN_READ (R75). -/
def answerCabinRead (k : Nat) (s : State) : Answer :=
  if s.cfs.geometry.hasCabin k then .accepted (cabinPayload k s) s else badField 1

/-- QUEUE_READ (R110). -/
def answerQueueRead (first : Nat) (s : State) : Answer :=
  if 1 ≤ first ∧ first ≤ 32 then .accepted (queuePayload first s) s else badField 1

/-- HOLD_LIST (R142). -/
def answerHoldList (s : State) : Answer := .accepted (holdListPayload s) s

/-- MOVE_READ (R53). -/
def answerMoveRead (s : State) : Answer := .accepted (movePayload s) s

/-- WIND_READ (R133). -/
def answerWindRead (s : State) : Answer := .accepted (windPayload s) s

/-- INPUTS_READ (R150). -/
def answerInputsRead (s : State) : Answer := .accepted (inputsPayload s) s

/-- FAULT_READ; 0 names all banks (R169). -/
def answerFaultRead (b : Nat) (s : State) : Answer :=
  if b = 0 then .accepted (faultPayload allBanks s) s
  else
    match BankId.ofNumber b with
    | none => badField 1
    | some id => .accepted (faultPayload [id] s) s

/-- TRIAL_READ (R54). -/
def answerTrialRead (s : State) : Answer := .accepted (trialPayload s) s

/-- CONFIG_GET (R181). -/
def answerConfigGet (table index : Nat) (s : State) : Answer :=
  match Table.ofNumber table with
  | none => badField 1
  | some t =>
    match t.entry index with
    | none => badField 2
    | some e => .accepted (configPayload t e s) s

/-! ### Configuration and device state -/

/-- CONFIG_SET (R180). -/
def answerConfigSet (table index : Byte) (values : List (Byte × Quad)) (s : State) : Answer :=
  match judgeConfig table index values s with
  | .refused reason f => .refused reason f
  | .accepted t e list v =>
    let s := configWrite e list v s
    .accepted (be1 t.number ++ be1 index.toNat ++ valueBytes t (s.values e)) s

/-- COMMISSION (R183, R186). -/
def answerCommission (s : State) : Answer :=
  if s.cfs.device = .service then wrongState
  else
    match commissionFailure s with
    | some n => .refused .configInvalid n
    | none =>
      let s := commission s
      .accepted (be1 s.cfs.device.code ++ be4 s.cfs.clock) s

/-- DECOMMISSION (R187). -/
def answerDecommission (s : State) : Answer :=
  if s.cfs.device = .service ∧ s.wheelParked = true then
    let s := decommission s
    .accepted (be1 s.cfs.device.code) s
  else wrongState

/-- RESTART: the warm reset (R188). -/
def answerRestart (s : State) : Answer := if s.wheelParked then .accepted [] (warmReset s) else wrongState

/-! ### Rotation -/

/-- s with run-enable set or cleared, and the reply of RUN (R27). -/
def runAnswer (on : Bool) (s : State) : Answer :=
  let s := { s with roc := { s.roc with runEnable := on } }
  .accepted (beBool on ++ be1 s.roc.rotation.code) s

/-- RUN: on is refused in CONFIG, off is accepted in every device state (R27). -/
def answerRun (on : Byte) (s : State) : Answer :=
  if on = 0 then runAnswer false s
  else if on = 1 then (if s.cfs.device = .service then runAnswer true s else wrongState)
  else badField 1

/-- CLEAR_TRIP (R26). -/
def answerClearTrip (s : State) : Answer :=
  if s.roc.rotation = .tripped ∧ s.ptr.standstill = true ∧ s.hlu.effective ≠ .park then
    .accepted (be1 Rotation.braked.code) { s with roc := { s.roc with rotation := .braked } }
  else wrongState

/-- DECEL_TRIAL_START (R55). -/
def answerDecelTrialStart (s : State) : Answer :=
  if s.trialAllowed then .accepted (be2s s.ptr.speed ++ be4 s.cfs.clock) (startTrial s) else wrongState

/-! ### Station holds (R140, R141) -/

/-- The hold identity of a station's reason (R136). -/
def stationHold (p : Port) (reason : Nat) : HoldId :=
  match p with
  | .p1 => .controlRoom reason
  | .p2 => .platformDesk reason

/-- Whether a hold entry is a station's own. -/
def HoldId.ofStation (p : Port) (id : HoldId) : Bool := (List.range 16).any fun r => id == stationHold p r

/-- How many entries a station holds. -/
def State.stationCount (s : State) (p : Port) : Nat := (s.hlu.entries.filter fun e => e.id.ofStation p).length

/-- The position in the set, from 1, of an entry's identity. -/
def State.holdPosition (s : State) (id : HoldId) : Nat := s.hlu.entries.findIdx (fun e => e.id == id) + 1

/-- HOLD_SET (R140). -/
def answerHoldSet (p : Port) (reason level : Nat) (s : State) : Answer :=
  if ¬(1 ≤ reason ∧ reason ≤ 15) then badField 1
  else
    match Level.ofCode level with
    | none => badField 2
    | some .none => badField 2
    | some lv =>
      let id := stationHold p reason
      if (s.hold id).isNone && decide (4 ≤ s.stationCount p) then .refused .full 0
      else
        let s := holdInsert id lv s
        .accepted (be1 reason ++ be1 lv.code ++ be1 (s.holdPosition id) ++ be1 s.hlu.effective.code) s

/-- HOLD_RELEASE (R141). -/
def answerHoldRelease (p : Port) (reason : Nat) (s : State) : Answer :=
  if ¬(1 ≤ reason ∧ reason ≤ 15) then badField 1
  else
    let id := stationHold p reason
    if (s.hold id).isSome then
      let s := holdRemove id s
      .accepted (be1 reason ++ be1 s.hlu.effective.code) s
    else .refused .unknownId 0

/-! ### Group queue (R104 to R106) -/

/-- The refusal of a GROUP_ADD, in the order of R104; the flag is judged with the fields' ranges (log 24). -/
def groupAddRefusal (id size mass acc : Nat) (s : State) : Option (Reason × Nat) :=
  let g := s.newGroup id size mass (acc == 1)
  if id = 0 then some (.badField, 1)
  else if ¬(1 ≤ size ∧ size ≤ 40) then some (.badField, 2)
  else if 4000 < mass then some (.badField, 3)
  else if 1 < acc then some (.badField, 4)
  else if s.cfs.boarding.capacity < size then some (.badField, 2)
  else if s.cfs.boarding.maxLoad < s.partyMass g then some (.badField, 3)
  else if id ∈ s.heldIds then some (.duplicateId, 0)
  else if 32 ≤ s.bsq.queue.length then some (.full, 0)
  else none

/-- GROUP_ADD (R104, R105, R108). -/
def answerGroupAdd (id size mass acc : Nat) (s : State) : Answer :=
  match groupAddRefusal id size mass acc s with
  | some (reason, f) => .refused reason f
  | none =>
    let g := s.newGroup id size mass (acc == 1)
    let count := s.bsq.queue.length + 1
    .accepted (be2 id ++ be1 count ++ be2 (s.partyMass g) ++ be1 g.source.code)
      (addNotice count { s with bsq := { s.bsq with queue := s.bsq.queue ++ [g] } })

/-- GROUP_WITHDRAW (R106, R108). -/
def answerGroupWithdraw (id : Nat) (s : State) : Answer :=
  if id = 0 then badField 1
  else
    match s.bsq.queue.findIdx? fun g => g.id == id with
    | none => .refused .unknownId 0
    | some i =>
      let queue := s.bsq.queue.eraseIdx i
      let s := { s with bsq := { s.bsq with queue := queue } }
      .accepted (be1 (i + 1) ++ be1 queue.length)
        (if queue = [] then notify (.queueEmpty 0 s.cfs.clock) s else s)

/-! ### Boarding -/

/-- DOOR_RETRY (R92). -/
def answerDoorRetry (k : Nat) (s : State) : Answer :=
  let ph := (s.cabin k).phase
  if ¬s.cfs.geometry.hasCabin k then badField 1
  else if (ph = .closing ∨ ph = .doorHold) ∧ s.hasDoor k = true then
    .accepted (be1 ph.code ++ be1 (s.node k).door.code ++ be1 (s.node k).state.code) (queueCommand k .close s)
  else wrongState

/-- The cabin record that CABIN_SERVICE leaves: IN also clears the count, OUT keeps it (R97). -/
def servedCabin (isIn : Bool) (c : Cabin) : Cabin :=
  if isIn then { c with service := .inService, suspectCount := 0 } else { c with service := .outOfService }

/-- CABIN_SERVICE (R97). -/
def answerCabinService (k direction : Nat) (s : State) : Answer :=
  if ¬s.cfs.geometry.hasCabin k then badField 1
  else if ¬(direction = 1 ∨ direction = 2) then badField 2
  else
    let c := servedCabin (direction == 1) (s.cabin k)
    .accepted (be1 c.service.code ++ be1 c.suspectCount) (serviceChange k c .request s)

/-! ### Moves (R45, R49, R50) -/

/-- The answer of a submission: slot and record (R45). -/
def submissionAnswer : Submission → Answer
  | .refused reason f => .refused reason f
  | .accepted slot m s => .accepted (be1 slot.code ++ moveBytes (some m)) s

/-- The origin of a station's move (R45). -/
def stationOrigin : Port → MoveOrigin
  | .p1 => .controlRoom
  | .p2 => .platformDesk

/-- MOVE_SUBMIT: an ADVANCE of the platform desk is refused first (R45). -/
def answerMoveSubmit (p : Port) (kind operand : Nat) (s : State) : Answer :=
  if kind = 1 then submissionAnswer (submitMove (.stopCabin operand) (stationOrigin p) s)
  else if kind = 2 then
    (if p = .p2 then .refused .notPermitted 0 else submissionAnswer (submitMove (.advance operand) (stationOrigin p) s))
  else badField 1

/-- The answer of a request on a move number, without data (R49, R50). -/
def moveAnswer : MoveAnswer → Answer
  | .refused reason => .refused reason 0
  | .done s => .accepted [] s

/-! ### Inputs, wind -/

/-- FACTOR_CLEAR (R148). -/
def answerFactorClear (group : Nat) (s : State) : Answer :=
  match GroupId.ofNumber group with
  | none => badField 1
  | some g =>
    let s := factorClear g s
    .accepted
      (be1 (matchCode (s.group g).isMatch) ++ beBool (s.group g).factor ++ beBool (s.hold (.inputs g)).isSome) s

/-- WIND_PROFILE_WRITE (R127). -/
def answerProfileWrite (profile : Nat) (values : List Nat) (s : State) : Answer :=
  match ProfileId.ofNumber profile with
  | none => badField 1
  | some id =>
    if s.wmn.operative = id then wrongState
    else
      match profileRangeFailure 0 values with
      | some i => badField (i + 2)
      | none =>
        match profileRelationFailure values with
        | some i => badField (i + 2)
        | none => .accepted (be1 profile) { s with wmn := s.wmn.putProfile id (profileOf values) }

/-- WIND_PROFILE_SELECT (R128). -/
def answerProfileSelect (profile : Nat) (s : State) : Answer :=
  match ProfileId.ofNumber profile with
  | none => badField 1
  | some id =>
    let s := selectProfile id s
    .accepted (be1 s.wmn.operative.number ++ be1 s.wmn.level.code) s

/-! ### Fault banks (R158, R166 to R168) -/

/-- A pending bank is acknowledged: its pending flag and hold level go, and its FAULT entry with them (R166). -/
def acknowledge (id : BankId) (s : State) : State :=
  if (s.bank id).hold.isSome then holdRemove (.fault id) (setBank id { s.bank id with hold := none } s) else s

/-- FAULT_ACK (R166). -/
def answerFaultAck (b : Nat) (s : State) : Answer :=
  match BankId.ofNumber b with
  | none => badField 1
  | some id =>
    let s := acknowledge id s
    .accepted (beBool (s.bank id).hold.isSome ++ be1 s.hlu.effective.code) s

/-- FAULT_CLEAR (R167). -/
def answerFaultClear (b : Nat) (s : State) : Answer :=
  match BankId.ofNumber b with
  | none => badField 1
  | some id =>
    if (s.bank id).hold.isSome then wrongState
    else .accepted (be1 b) (setBank id { s.bank id with record := none, overflow := false } s)

/-- COUNTER_CLEAR (R168). -/
def answerCounterClear (b : Nat) (s : State) : Answer :=
  match BankId.ofNumber b with
  | none => badField 1
  | some id => .accepted (be1 b) (setBank id { s.bank id with counter := 0, thresholdReached := false } s)

/-- A bank's mask with a code masked or unmasked (R158). -/
def maskedWith (mask : BitVec 32) (c : FaultCode) (on : Bool) : BitVec 32 :=
  let bit : BitVec 32 := 1 <<< (c.number - 1)
  if on then mask ||| bit else mask &&& ~~~bit

/-- FAULT_MASK; the mask flag is judged after the steps of R158 (log 24), and the reply has the mask as a bit field of four
bytes, like FAULT_READ's detect mask (log 17). -/
def answerFaultMask (b code mask : Nat) (s : State) : Answer :=
  match BankId.ofNumber b with
  | none => badField 1
  | some id =>
    match FaultCode.ofNumber code with
    | none => badField 2
    | some c =>
      if c.bank ≠ id ∨ c.scope ≠ .signal then badField 2
      else if 1 < mask then badField 3
      else
        let m := maskedWith (s.bank id).mask c (mask == 1)
        .accepted (be1 b ++ be4 m.toNat) (setBank id { s.bank id with mask := m } s)

/-! ### The owning block's answer to any request -/

/-- What a request from a port comes to at the block that owns it (R175, R176). -/
def answer (p : Port) (r : Request) (s : State) : Answer :=
  match r with
  | .status => answerStatus p s
  | .cabinRead k => answerCabinRead k.toNat s
  | .queueRead n => answerQueueRead n.toNat s
  | .holdList => answerHoldList s
  | .moveRead => answerMoveRead s
  | .windRead => answerWindRead s
  | .inputsRead => answerInputsRead s
  | .faultRead b => answerFaultRead b.toNat s
  | .trialRead => answerTrialRead s
  | .configGet t i => answerConfigGet t.toNat i.toNat s
  | .configSet t i vs => answerConfigSet t i vs s
  | .commission => answerCommission s
  | .decommission => answerDecommission s
  | .restart => answerRestart s
  | .run on => answerRun on s
  | .holdSet r v => answerHoldSet p r.toNat v.toNat s
  | .holdRelease r => answerHoldRelease p r.toNat s
  | .groupAdd id size mass acc => answerGroupAdd id.toNat size.toNat mass.toNat acc.toNat s
  | .groupWithdraw id => answerGroupWithdraw id.toNat s
  | .doorRetry k => answerDoorRetry k.toNat s
  | .factorClear g => answerFactorClear g.toNat s
  | .moveSubmit kind operand => answerMoveSubmit p kind.toNat operand.toNat s
  | .moveCancel n => moveAnswer (cancelMove n.toNat s)
  | .moveResume n => moveAnswer (resumeMove n.toNat s)
  | .cabinService k d => answerCabinService k.toNat d.toNat s
  | .windProfileWrite profile vs => answerProfileWrite profile.toNat (vs.map BitVec.toNat) s
  | .windProfileSelect profile => answerProfileSelect profile.toNat s
  | .faultAck b => answerFaultAck b.toNat s
  | .faultClear b => answerFaultClear b.toNat s
  | .counterClear b => answerCounterClear b.toNat s
  | .faultMask b c m => answerFaultMask b.toNat c.toNat m.toNat s
  | .decelTrialStart => answerDecelTrialStart s
  | .clearTrip => answerClearTrip s

end Sys2Proof.Machine
end

