-- ==== Sys2Proof/Machine/Link.lean ====
section
/-! DEFINITION. The Link Ports (R172 to R178): the receiver, the judgement of a frame, the taking of requests, the
transmitter, and the presence timer's expiry (R152). -/

namespace Sys2Proof.Machine

/-! ### Replies (R175, R176) -/

/-- KIND of the accepted reply to a request kind (R176). -/
def replyKind (kind : Byte) : Byte := kind + 0x40

/-- A refusal's frame: KIND 0x7F, the request's KIND, the reason and the field index (R176). -/
def refusalFrame (f : Frame) (reason : Reason) (field : Nat) : Frame :=
  { kind := 0x7F, tag := f.tag, payload := f.kind :: (be1 reason.code ++ be1 field) }

/-- What a taken frame comes to: the port's own checks, then the owning block (R175). -/
def judgeFrame (p : Port) (f : Frame) (s : State) : Answer :=
  if ¬isRequestKind f.kind.toNat then .refused .unknownKind 0
  else if ¬portMay p f.kind.toNat then .refused .notPermitted 0
  else
    match readRequest f.kind.toNat f.payload with
    | none => .refused .badLength 0
    | some r => answer p r s

/-- The frame of the reply to a taken frame (R176). -/
def replyFrame (f : Frame) : Answer → Frame
  | .accepted payload _ => { kind := replyKind f.kind, tag := f.tag, payload := payload }
  | .refused reason field => refusalFrame f reason field

/-- The state that a taken frame leaves, without its reply (R176). -/
def answerState (s : State) : Answer → State
  | .accepted _ t => t
  | .refused _ _ => s

/-- A frame is handled whole: the reply slot is taken from the start, so that what the request produces stays behind the
reply, which stands in it at the end (R175). -/
def handleFrame (p : Port) (f : Frame) (s : State) : State :=
  let claimed := setPort p { s.port p with reply := some (refusalFrame f .unknownKind 0) } s
  let a := judgeFrame p f claimed
  let t := answerState claimed a
  setPort p { t.port p with reply := some (replyFrame f a) } t

/-- A port takes its oldest frame when its reply slot is empty (R175). -/
def takeFrame (p : Port) (s : State) : State :=
  match (s.port p).fifo with
  | [] => s
  | f :: rest =>
    if (s.port p).reply = none then handleFrame p f (setPort p { s.port p with fifo := rest } s) else s

/-! ### The transmitter (R177) -/

/-- An idle transmitter begins the reply, or the oldest notice (R177). -/
def PortState.pumped (q : PortState) : PortState :=
  if q.transmitter.isSome then q
  else
    match q.reply with
    | some f => { q with transmitter := some (.reply f), reply := none }
    | none =>
      match q.outbox with
      | [] => q
      | n :: rest => { q with transmitter := some (.notice n), outbox := rest }

/-- A port's transmitter begins what it can. -/
def pump (p : Port) (s : State) : State := setPort p (s.port p).pumped s

/-- A port takes a request if it is free to, its transmitter begins the reply if it is idle, and the slot that this empties
lets it take the next frame (R175, R177). -/
def settlePort (p : Port) (s : State) : State := takeFrame p (pump p (takeFrame p s))

/-- The transmitter has finished a frame and begins what waits; the slot that this empties lets the port take its next
frame, and a RESTART taken there leaves the transmitter idle before its kept reply (R177, R178). -/
def transmitDone (p : Port) (s : State) : State :=
  if (s.port p).transmitter.isSome then
    settlePort p (pump p (setPort p { s.port p with transmitter := none } s))
  else s

/-! ### Arrival of a frame (R152, R153, R174) -/

/-- A frame joins a port's FIFO. -/
def joinFifo (p : Port) (f : Frame) (s : State) : State :=
  setPort p { s.port p with fifo := (s.port p).fifo ++ [f] } s

/-- The presence handling of a valid frame: a LINK entry goes, and in SERVICE the timer starts again (R152, R153). -/
def presenceHeard (p : Port) (s : State) : State :=
  let s := holdRemove (.link p) s
  if s.cfs.device = .service ∧ (s.port p).presenceTime ≠ 0 then setPort p (s.port p).presenceStarted s else s

/-- A frame with a correct CRC arrives whole: its presence handling, then its place in the FIFO (R152, R153, R174). -/
def frameArrives (p : Port) (f : Frame) (s : State) : State :=
  if (s.port p).fifo.length < 2 then settlePort p (joinFifo p f (presenceHeard p s))
  else report .inputOverrun (some (portNumber p)) s

/-! ### The receiver (R173) -/

/-- The frame that the bytes after START make, once they are all there; ok is whether the CRC agrees (R172). -/
inductive Gathered where
  | more
  | badLength
  | done (frame : Frame) (ok : Bool)
  deriving DecidableEq, Repr

/-- LEN, KIND, TAG, payload and CRC as they stand in a complete frame's bytes after START (R172). -/
def gatheredFrame (len : Byte) (rest : List Byte) : Gathered :=
  match rest with
  | kind :: tag :: more =>
    let n := len.toNat - 2
    let payload := more.take n
    let crc := more.drop n
    .done { kind := kind, tag := tag, payload := payload } (crc == halfBytes (crc16 (len :: kind :: tag :: payload)))
  | _ => .more

/-- What the bytes gathered after START come to (R173). -/
def gather : List Byte → Gathered
  | [] => .more
  | len :: rest =>
    if len.toNat < 2 ∨ 202 < len.toNat then .badLength
    else if rest.length < len.toNat + 2 then .more
    else gatheredFrame len rest

/-- s with a port's receiver replaced. -/
def setReceiver (p : Port) (r : Receiver) (s : State) : State := setPort p { s.port p with receiver := r } s

/-- The frame being received is discarded with a report (R173, R174). -/
def discardFrame (p : Port) (code : FaultCode) (s : State) : State :=
  report code (some (portNumber p)) (setReceiver p .hunting s)

/-- A byte arrives while the receiver is in a frame whose bytes so far and timer are given (R173). -/
def frameByte (p : Port) (bytes : List Byte) (elapsed : Nat) (b : Byte) (stopBit : Bool) (s : State) : State :=
  if stopBit then
    match gather (bytes ++ [b]) with
    | .more => setReceiver p (.inFrame (bytes ++ [b]) elapsed) s
    | .badLength => discardFrame p .crcError s
    | .done f true => frameArrives p f (setReceiver p .hunting s)
    | .done _ false => discardFrame p .crcError s
  else discardFrame p .crcError s

/-- A byte arrives on a port; stopBit is false for a framing error (R173). -/
def byteArrives (p : Port) (b : Byte) (stopBit : Bool) (s : State) : State :=
  match (s.port p).receiver with
  | .hunting => if stopBit && b == 0xC3 then setReceiver p (.inFrame [] 0) s else s
  | .inFrame bytes elapsed => frameByte p bytes elapsed b stopBit s

/-- The frame timer reaches 30 ms (R173). -/
def frameTimeout (p : Port) (s : State) : State :=
  match (s.port p).receiver with
  | .hunting => s
  | .inFrame _ _ => discardFrame p .frameTimeout s

/-! ### Presence (R152) -/

/-- The presence timer reaches its time: it stops, the LINK entry is inserted and PRESENCE_LOST reported. Nothing is inserted
when a frame that came together with the expiry has been taken first and has started the timer again (R152; log 49). -/
def presenceExpires (p : Port) (s : State) : State :=
  if (s.port p).presence.isSome && !(s.port p).lateExpiry then
    let s := setPort p { s.port p with presence := none } s
    report .presenceLost (some (portNumber p)) (holdInsert (.link p) (s.port p).presenceLevel s)
  else s

end Sys2Proof.Machine
end

