-- ==== Sys2Proof/Machine/Update.lean ====
section
/-! DEFINITION. The control update (R3 and chapter 2): after the Position Tracker, the overrun check, the Rotation
Controller's step by its state, the tracking check, and the Move Unit's judgement. -/

namespace Sys2Proof.Machine

/-! ### Overrun check (R37) -/

/-- One DOOR entry is checked (R37). -/
def overrunEntry (s : State) (e : LimitPoint) : State :=
  match e.origin with
  | .door k =>
    if e.overrunReported = false ∧ e.remaining < -(s.cfs.zones.o : Int) then
      report .stopOverrun (some k) (markOverrun e.origin s)
    else s
  | .move => s
  | .slow => s

/-- Every DOOR entry is checked (R37), in list order, which decides the cabin of the record where several pass their
allowance at one update (this model's choice: log 47). -/
def overrunCheck (s : State) : State := s.roc.limits.foldl overrunEntry s

/-! ### The Rotation Controller's step (R20 to R24, R28, R34, R36, R39) -/

/-- The target is reported as 0 with HELD (R28). -/
def State.targetHeld (s : State) : Bool :=
  s.cfs.device == .config || s.roc.rotation == .tripped || s.roc.trialStep
    || (s.roc.rotation == .braked && !s.roc.brakeConfirmed)

/-- The target reported at an update, and its limiting term (R28). -/
def State.reportedTarget (s : State) (v : Nat) : Nat × LimitingTerm :=
  if s.targetHeld then (0, .held) else s.speedTarget v

/-- s with the reported target in place. -/
def withTarget (t : Nat × LimitingTerm) (s : State) : State :=
  { s with roc := { s.roc with target := t.1, limiting := t.2 } }

/-- All release conditions hold but DRIVE_READY (R20). -/
def State.releaseWanted (s : State) (target : Nat) : Bool :=
  s.roc.runEnable && s.cfs.device == .service && decide (0 < target) && s.roc.brakeConfirmed

/-- BRAKED to RELEASING; a BRAKE_RELEASED found present counts as arriving (R18, R20, R21). -/
def release (r : Roc) : Roc :=
  let t := { r with
    rotation := .releasing, brakeConfirmed := false, releaseTimer := some 0, waitingDriveReady := false }
  if r.brakeReleased then brakeReleasedArrives t else t

/-- An update in BRAKED (R20). -/
def brakedStep (s : State) : State :=
  let t := s.reportedTarget 0
  let s := withTarget t { s with roc := { s.roc with driveRef := 0 } }
  if s.releaseWanted t.1 then
    if s.roc.driveReady then { s with roc := release s.roc }
    else { s with roc := { s.roc with waitingDriveReady := true } }
  else { s with roc := { s.roc with waitingDriveReady := false } }

/-- An update in RELEASING (R22). -/
def releasingStep (s : State) : State := withTarget (s.reportedTarget 0) { s with roc := { s.roc with driveRef := 0 } }

/-- Entry into STANDING: the stand timer starts, and the change is handed to the Boarding Sequencer, which judges the door
holds by the curve limits of the update at the commanded speed v (R23, R39, R91). -/
def enterStanding (v : Nat) (s : State) : State :=
  let s := { s with roc := { s.roc with rotation := .standing, standTimer := some 0, driveRef := 0, trialStep := false } }
  enterDoorHolds (s.curveLimit v) s

/-- An update in RUNNING under a trial step (R39). -/
def trialStepUpdate (s : State) : State :=
  let s := withTarget (0, .held) { s with roc := { s.roc with driveRef := 0 } }
  if s.ptr.standstill then enterStanding s.roc.vCmd s else s

/-- The ramp step toward a target, and the drive reference of the new commanded speed (R34, R36). -/
def rampUpdate (target : Nat) (s : State) : State :=
  let v := rampStep s.roc.vCmd target s.cfs.speeds.aAcc s.roc.aEff
  { s with roc := { s.roc with vCmd := v, driveRef := driveWord v } }

/-- An update in RUNNING (R23). -/
def runningStep (s : State) : State :=
  let v := s.roc.vCmd
  let s := rampUpdate (s.speedTarget v).1 (withTarget (s.reportedTarget v) s)
  if s.roc.vCmd = 0 ∧ s.ptr.standstill = true then enterStanding v s else s

/-- An update in STANDING (R24). -/
def standingStep (s : State) : State :=
  let v := s.roc.vCmd
  let t := (s.speedTarget v).1
  let s := withTarget (s.reportedTarget v) s
  if 0 < t then rampUpdate t { s with roc := { s.roc with rotation := .running, standTimer := none } }
  else { s with roc := { s.roc with driveRef := 0 } }

/-- An update in TRIPPED (R25). -/
def trippedStep (s : State) : State := withTarget (0, .held) { s with roc := { s.roc with driveRef := 0 } }

/-- The Rotation Controller's step by its state. -/
def rotationStep (s : State) : State :=
  match s.roc.rotation with
  | .braked => brakedStep s
  | .releasing => releasingStep s
  | .running => if s.roc.trialStep then trialStepUpdate s else runningStep s
  | .standing => standingStep s
  | .tripped => trippedStep s

/-! ### Tracking check (R38) -/

/-- Whether the check is made at an update; trial is whether a trial step was in force before the Rotation Controller's step
(log 25). -/
def State.trackingMade (s : State) (trial : Bool) : Bool :=
  (s.roc.rotation == .running || s.roc.rotation == .standing) && s.roc.grace.isNone && !trial && !s.roc.trialStep

/-- The measured speed is off the commanded one by more than the tracking limit (R38). -/
def State.trackingOff (s : State) : Bool :=
  decide (s.cfs.speeds.trackLim < (s.ptr.speed - ((s.roc.vCmd / 1000 : Nat) : Int)).natAbs)

/-- The counter reaches 20 at this update (R38). -/
def State.trackingDue (s : State) (trial : Bool) : Bool :=
  s.trackingMade trial && s.trackingOff && decide (20 ≤ s.roc.tracking + 1)

/-- The tracking check (R38). -/
def trackingCheck (trial : Bool) (s : State) : State :=
  let counter := if s.trackingMade trial && s.trackingOff then s.roc.tracking + 1 else 0
  if s.trackingDue trial then report .trackingError none { s with roc := { s.roc with tracking := 0 } }
  else { s with roc := { s.roc with tracking := counter } }

/-! ### The Move Unit's part (R48, R56, R57) -/

/-- The judgement of an ACTIVE move at standstill, with its remaining travel r (R48). A move that stays ACTIVE has
been judged too and has an arrival error (R44), whose value no rule gives: a free value (log 50). Its status is unchanged, so
no MOVE_STATUS is sent (R53). -/
def judgeMove (m : Move) (r : Int) (s : State) : State :=
  let tolerance : Int := s.cfs.boarding.tStop
  let judged := { m with arrivalError := some (-r) }
  let missed := finishA { judged with status := .aborted, cause := some .position }
  if -tolerance ≤ r ∧ r ≤ tolerance then
    match m.kind with
    | .stopCabin k =>
      let s := moveChanged .a (some { judged with status := .arrived }) s
      if (s.cabin k).phase = .unloading then changeToLoading k s else s
    | .advance _ => finishA { judged with status := .done } s
  else if r < -tolerance then missed s
  else if s.roc.target = 0 ∧ s.roc.limiting = .curve .move then missed s
  else setSlot .a (some { m with arrivalError := some (Config.heldArrivalError m.number m.arrivalError r) }) s

/-- Slot A is judged at an update that reports standstill (R48). -/
def moveUpdate (s : State) : State :=
  match s.mvu.slotA, s.limit .move with
  | some m, some e => if m.status = .active ∧ s.ptr.standstill = true then judgeMove m e.remaining s else s
  | _, _ => s

/-- A measuring trial takes the update's delta, and completes at standstill (R56). -/
def trialUpdate (delta : Int) (s : State) : State :=
  let t := s.mvu.trial
  if t.status = .measuring then
    let s := { s with mvu := { s.mvu with trial := { t with counts := some (t.counts.getD 0 + delta) } } }
    if s.ptr.standstill then completeTrial s else s
  else s

/-! ### The whole update -/

/-- The update up to the overrun check: encoder, reports, crossings (R3 to R14, R32, R37; log 9). -/
def updateWheel (s : State) : State :=
  overrunCheck (passUpdate s.ptr (encoderReports s.ptr (settleUpdate s)))

/-- The word that an update leaves on the drive reference line is the one that STATUS shows until the next (R36, R43; log 35). -/
def keepWord (s : State) : State := { s with roc := { s.roc with updateRef := s.roc.driveRef } }

/-- The control update (R3). -/
def controlUpdate (s : State) : State :=
  let w := updateWheel s
  keepWord (moveUpdate (trialUpdate s.ptr.delta (trackingCheck w.roc.trialStep (rotationStep w))))

/-- The update at which standstill is set (R12). -/
def State.standstillDue (s : State) : Bool := !s.ptr.standstill && s.ptr.newStandstill

/-- The update at which TRACKING_ERROR is reported (R38). -/
def State.trackingErrorDue (s : State) : Bool :=
  let w := updateWheel s
  (rotationStep w).trackingDue w.roc.trialStep

end Sys2Proof.Machine
end

