-- ==== Sys2Proof/Machine/Tick.lean ====
section
/-! DEFINITION. One millisecond of the part's own clock, which is what the step of an empty queue does (log 1): every running
timer goes on, and a timer that reaches its time puts its own expiry command in the queue. -/

namespace Sys2Proof.Machine

/-! ### Periods in milliseconds -/

/-- Control timer (R11, chapter 0). -/
abbrev controlPeriod : Nat := 50

/-- Wind sample timer (R118). -/
abbrev samplePeriod : Nat := 250

/-- Service clock (R182). -/
abbrev secondPeriod : Nat := 1000

/-- Release timer (R19, R22). -/
abbrev releasePeriod : Nat := 3000

/-- Brake-set timer (R19, R21). -/
abbrev brakeSetPeriod : Nat := 2000

/-- Tracking grace (R38). -/
abbrev gracePeriod : Nat := 2000

/-- Input filter (R144). -/
abbrev filterPeriod : Nat := 20

/-- Frame timer (R173). -/
abbrev framePeriod : Nat := 30

/-! ### Advancing -/

/-- A running timer after one more millisecond. -/
def advance (t : Option Nat) : Option Nat := t.map (· + 1)

/-- A running timer has reached a period. -/
def reached (period : Nat) (t : Option Nat) : Bool :=
  match t with
  | none => false
  | some e => decide (period ≤ e)

/-- A free-running timer after one more millisecond, 0 at its period. -/
def cycle (period e : Nat) : Nat := if period ≤ e + 1 then 0 else e + 1

/-- The receiver's frame timer goes on. -/
def Receiver.advanced : Receiver → Receiver
  | .hunting => .hunting
  | .inFrame bytes e => .inFrame bytes (e + 1)

/-- The elapsed time of a receiver's frame timer. -/
def Receiver.elapsed : Receiver → Option Nat
  | .hunting => none
  | .inFrame _ e => some e

/-- A presence timer goes on. -/
def PresenceTimer.advanced (t : PresenceTimer) : PresenceTimer := { t with elapsed := t.elapsed + 1 }

/-- A port's timers go on; an expiry of an earlier millisecond no longer waits, for time passes on an empty queue (log 49). -/
def PortState.advanced (q : PortState) : PortState :=
  { q with receiver := q.receiver.advanced, presence := q.presence.map PresenceTimer.advanced, lateExpiry := false }

/-- The Rotation Controller's timers go on. -/
def Roc.advanced (r : Roc) : Roc :=
  { r with
    releaseTimer := advance r.releaseTimer, brakeSetTimer := advance r.brakeSetTimer, standTimer := advance r.standTimer,
    grace := advance r.grace }

/-- The reply wait goes on. -/
def Cru.advanced (c : Cru) : Cru :=
  { c with flight := c.flight.map fun t => { t with wait := advance t.wait } }

/-- Every timer of the part goes on by one millisecond. -/
def advanceTimers (s : State) : State :=
  { s with
    roc := s.roc.advanced
    cru := s.cru.advanced
    pim := { s.pim with inputs := s.pim.inputs.map fun i => { i with timer := advance i.timer } }
    lkp := { p1 := s.lkp.p1.advanced, p2 := s.lkp.p2.advanced }
    time := { s.time with
      control := cycle controlPeriod s.time.control, sample := cycle samplePeriod s.time.sample,
      second := cycle secondPeriod s.time.second } }

/-! ### Expiries -/

/-- A command when its timer is due. -/
def due (b : Bool) (c : Instr) : List Instr := if b then [c] else []

/-- The reply wait of the transaction in flight. -/
def Cru.waited (c : Cru) : Option Nat :=
  match c.flight with
  | none => none
  | some t => t.wait

/-- The input filters that are due, in input order. -/
def inputsDue (s : State) : List Instr :=
  (List.finRange 16).flatMap fun i => due (reached filterPeriod (s.input i.val).timer) (.inputChange i)

/-- A port's expiries. -/
def portDue (s : State) (p : Port) : List Instr :=
  due (s.port p).presenceReached (.presenceTimerExpiry p)
    ++ due (reached framePeriod (s.port p).receiver.elapsed) (.frameTimeout p)

/-- The expiry commands of the timers that are due, in this model's order (log 8); s stands after the timers have gone on.
A free-running timer is due when it has come back to 0. The reply wait is held to the table's present T_node (log 37). -/
def expiries (s : State) : List Instr :=
  due (s.time.second == 0) .serviceClockTick
    ++ due (reached releasePeriod s.roc.releaseTimer) .brakeReleaseTimeout
    ++ due (reached brakeSetPeriod s.roc.brakeSetTimer) .brakeSetTimeout
    ++ due (reached (s.cfs.speeds.tStand * 1000) s.roc.standTimer) .standTimerExpiry
    ++ due (reached gracePeriod s.roc.grace) .trackingGraceExpiry
    ++ due (reached s.cfs.ring.tNode s.cru.waited) .nodeTimeout
    ++ inputsDue s ++ portDue s .p1 ++ portDue s .p2
    ++ due (s.time.sample == 0) .windSample
    ++ due (s.time.control == 0) .controlUpdate

/-- One millisecond: nothing while a reset is held; otherwise the timers go on and the expiries join the queue (log 1, 3). -/
def tick (s : State) : State :=
  if s.time.resetHeld then s
  else
    let s := advanceTimers s
    { s with pending := s.pending ++ expiries s }

end Sys2Proof.Machine
end

