-- ==== Sys2Proof/Machine/Events.lean ====
section
/-! DEFINITION. The meanings of the commands that are events: resets, field lines, timers, updates, samples and bytes. While
a reset is held only the pins, the encoder and the two reset commands act (log 3). -/

namespace Sys2Proof.Machine

/-- Answers of a meaning. -/
abbrev Result := Host.Outcome State Fault Refusal

/-- The state that a reset leaves alone, or the given effect while no reset is held (log 3). -/
def unlessReset (effect : State → State) (s : State) : State := if s.time.resetHeld then s else effect s

/-! ### Resets -/

/-- COLD_RESET (R15, R18, R41). -/
def execColdReset (s : State) : Result := .next (coldReset s)

/-- COLD_RESET_END (R134, R15, R41, R143, R150). -/
def execColdResetEnd (s : State) : Result := .next (coldResetEnd s)

/-! ### The encoder and the control update -/

/-- CONTROL_UPDATE (R3). -/
def execControlUpdate (s : State) : Result := .next (unlessReset controlUpdate s)

/-- The counter value at a mark is latched (R4). -/
def latchMark (s : State) : State := { s with ptr := { s.ptr with latch := some s.ptr.counter } }

/-- INDEX_MARK (R4). -/
def execIndexMark (s : State) : Result := .next (unlessReset latchMark s)

/-- STANDSTILL: the control update at which standstill is set (R12; log 5). -/
def execStandstill (s : State) : Result :=
  .next (unlessReset (fun s => if s.standstillDue then controlUpdate s else s) s)

/-- TRACKING_ERROR: the control update at which it is reported (R38; log 5). -/
def execTrackingError (s : State) : Result :=
  .next (unlessReset (fun s => if s.trackingErrorDue then controlUpdate s else s) s)

/-- ENCODER_COUNT: the counter moves by a number of counts, at all times (R3). -/
def execEncoderCount (counts : Int) (s : State) : Result :=
  .next { s with ptr := { s.ptr with counter := s.ptr.counter + BitVec.ofInt 32 counts } }

/-! ### The Rotation Controller's lines and timers -/

/-- The tracking grace expires (R38). -/
def graceExpires (s : State) : State := { s with roc := { s.roc with grace := none } }

/-- TRACKING_GRACE_EXPIRY (R38). -/
def execTrackingGraceExpiry (s : State) : Result := .next (unlessReset graceExpires s)

/-- A feedback line's state in the pins (R18). -/
def Roc.withLine (r : Roc) (line : FeedbackLine) (present : Bool) : Roc :=
  match line with
  | .driveReady => { r with driveReady := present }
  | .brakeReleased => { r with brakeReleased := present }
  | .brakeSet => { r with brakeSet := present }

/-- Whether a feedback line is present. -/
def Roc.line (r : Roc) : FeedbackLine → Bool
  | .driveReady => r.driveReady
  | .brakeReleased => r.brakeReleased
  | .brakeSet => r.brakeSet

/-- The Rotation Controller takes the arrival of a line: BRAKE_RELEASED and BRAKE_SET are acted on, DRIVE_READY is
consulted at updates only (R18, R21, R22). -/
def lineArrives (line : FeedbackLine) (r : Roc) : Roc :=
  match line with
  | .driveReady => r
  | .brakeReleased => brakeReleasedArrives r
  | .brakeSet => brakeSetArrives r

/-- A feedback line changes; a change from absent to present is its arrival (R18; log 32). While a reset is held the pin
alone moves. -/
def lineChanges (line : FeedbackLine) (present : Bool) (s : State) : State :=
  let r := s.roc.withLine line present
  { s with roc := if present && !s.roc.line line && !s.time.resetHeld then lineArrives line r else r }

/-- A named arrival: the line is present, and the arrival is acted on (R21, R22). While a reset is held the pin alone
moves. -/
def lineArrival (line : FeedbackLine) (s : State) : State :=
  let r := s.roc.withLine line true
  { s with roc := if s.time.resetHeld then r else lineArrives line r }

/-- BRAKE_RELEASED_ARRIVAL (R22). -/
def execBrakeReleasedArrival (s : State) : Result := .next (lineArrival .brakeReleased s)

/-- BRAKE_SET_ARRIVAL (R21). -/
def execBrakeSetArrival (s : State) : Result := .next (lineArrival .brakeSet s)

/-- DRIVE_READY_CHANGE, or the change of another feedback line (R18). -/
def execDriveReadyChange (line : FeedbackLine) (present : Bool) (s : State) : Result :=
  .next (lineChanges line present s)

/-- The release timer expires: BRAKED, and the report (R22). -/
def releaseTimeout (s : State) : State :=
  if s.roc.releaseTimer.isSome ∧ s.roc.rotation = .releasing then
    report .brakeReleaseTimeout none { s with roc := enterBraked s.roc }
  else s

/-- BRAKE_RELEASE_TIMEOUT (R22). -/
def execBrakeReleaseTimeout (s : State) : Result := .next (unlessReset releaseTimeout s)

/-- The brake-set timer expires: it stops, and the report (R21). -/
def brakeSetTimeout (s : State) : State :=
  if s.roc.brakeSetTimer.isSome then
    report .brakeSetTimeout none { s with roc := { s.roc with brakeSetTimer := none } }
  else s

/-- BRAKE_SET_TIMEOUT (R21). -/
def execBrakeSetTimeout (s : State) : Result := .next (unlessReset brakeSetTimeout s)

/-- The stand timer expires: BRAKED (R24). -/
def standExpires (s : State) : State :=
  if s.roc.standTimer.isSome ∧ s.roc.rotation = .standing then { s with roc := enterBraked s.roc } else s

/-- STAND_TIMER_EXPIRY (R24). -/
def execStandTimerExpiry (s : State) : Result := .next (unlessReset standExpires s)

/-! ### The ring -/

/-- RING_REQUEST_SENT (R60). -/
def execRingRequestSent (s : State) : Result := .next (unlessReset requestSent s)

/-- RING_REPLY_RECEIVED (R61). -/
def execRingReplyReceived (reply : List Byte) (s : State) : Result := .next (unlessReset (replyArrives reply) s)

/-- NODE_TIMEOUT (R69). -/
def execNodeTimeout (s : State) : Result := .next (unlessReset nodeTimeout s)

/-! ### The wind -/

/-- WIND_SAMPLE (R118). -/
def execWindSample (s : State) : Result := .next (unlessReset windSample s)

/-- CHANNEL_IMPLAUSIBLE: the sample at which a channel becomes IMPLAUSIBLE (R122; log 5). -/
def execChannelImplausible (ch : Channel) (s : State) : Result :=
  .next (unlessReset (fun s => if s.wmn.channels.sampled.failing ch then windSample s else s) s)

/-- CHANNEL_RECOVERY: the sample at which a channel becomes VALID again (R123; log 5). -/
def execChannelRecovery (ch : Channel) (s : State) : Result :=
  .next (unlessReset (fun s => if s.wmn.channels.sampled.recovering ch then windSample s else s) s)

/-- WARM_UP_END: the sample at which the warm-up count reaches 240 (R125; log 5). -/
def execWarmUpEnd (s : State) : Result :=
  .next (unlessReset (fun s => if s.wmn.warmUp = 239 then windSample s else s) s)

/-- CALM_PERIOD_EXPIRY: the sample at which the calm period expires (R130; log 5). -/
def execCalmPeriodExpiry (s : State) : Result :=
  .next (unlessReset (fun s => if s.wmn.observed.calmExpires then windSample s else s) s)

/-- A rising edge raises a channel's pulse counter, up to 65,535 (R119). -/
def pulse (ch : Channel) (s : State) : State :=
  setChannel ch { s.channel ch with pulses := min 65535 ((s.channel ch).pulses + 1) } s

/-- ANEMOMETER_PULSE (R119). -/
def execAnemometerPulse (ch : Channel) (s : State) : Result := .next (unlessReset (pulse ch) s)

/-! ### The platform inputs -/

/-- INPUT_RAW_CHANGE (R144); while a reset is held the pin alone moves. -/
def execInputRawChange (i : Fin 16) (value : Bool) (s : State) : Result :=
  .next (if s.time.resetHeld then setInput i.val { s.input i.val with raw := value } s else inputRaw i.val value s)

/-- INPUT_CHANGE (R144). -/
def execInputChange (i : Fin 16) (s : State) : Result := .next (unlessReset (inputChange i.val) s)

/-! ### The links and the clock -/

/-- PRESENCE_TIMER_EXPIRY (R152). -/
def execPresenceTimerExpiry (p : Port) (s : State) : Result := .next (unlessReset (presenceExpires p) s)

/-- LINK_BYTE_RECEIVED (R173). -/
def execLinkByteReceived (p : Port) (b : Byte) (stopBit : Bool) (s : State) : Result :=
  .next (unlessReset (byteArrives p b stopBit) s)

/-- FRAME_TIMEOUT (R173). -/
def execFrameTimeout (p : Port) (s : State) : Result := .next (unlessReset (frameTimeout p) s)

/-- TRANSMIT_DONE (R177). -/
def execTransmitDone (p : Port) (s : State) : Result := .next (unlessReset (transmitDone p) s)

/-- One more whole second, up to 4,294,967,295 (R182). -/
def clockTick (s : State) : State := { s with cfs := { s.cfs with clock := min 4294967295 (s.cfs.clock + 1) } }

/-- SERVICE_CLOCK_TICK (R182). -/
def execServiceClockTick (s : State) : Result := .next (unlessReset clockTick s)

end Sys2Proof.Machine
end

