-- ==== Sys2Proof/Machine/RequestCommands.lean ====
section
/-! DEFINITION. The meanings of the request commands: each is the arrival of one whole valid frame on its port, with the KIND
and payload of the request (R172, R174; log 6), which the port then takes and answers under R175 and R176. -/

namespace Sys2Proof.Machine

/-- A request as a frame with its TAG (R172). -/
def requestFrame (tag : Byte) (r : Request) : Frame :=
  { kind := BitVec.ofNat 8 (requestKind r), tag := tag, payload := requestPayload r }

/-- A request's frame arrives on a port; none arrives while a reset is held (log 3, 6). -/
def requestArrives (p : Port) (tag : Byte) (r : Request) (s : State) : Result :=
  .next (unlessReset (frameArrives p (requestFrame tag r)) s)

/-- REQUEST_UNKNOWN_KIND: a frame of any KIND and payload arrives; a KIND outside the catalogue is refused when it is taken
(R175). -/
def execRequestUnknownKind (p : Port) (tag kind : Byte) (payload : List Byte) (s : State) : Result :=
  .next (unlessReset (frameArrives p { kind := kind, tag := tag, payload := payload }) s)

/-- STATUS (R182). -/
def execStatus (p : Port) (tag : Byte) (s : State) : Result :=
  requestArrives p tag .status s

/-- CABIN_READ (R75). -/
def execCabinRead (p : Port) (tag cabin : Byte) (s : State) : Result :=
  requestArrives p tag (.cabinRead cabin) s

/-- QUEUE_READ (R110). -/
def execQueueRead (p : Port) (tag first : Byte) (s : State) : Result :=
  requestArrives p tag (.queueRead first) s

/-- HOLD_LIST (R142). -/
def execHoldList (p : Port) (tag : Byte) (s : State) : Result :=
  requestArrives p tag .holdList s

/-- MOVE_READ (R53). -/
def execMoveRead (p : Port) (tag : Byte) (s : State) : Result :=
  requestArrives p tag .moveRead s

/-- WIND_READ (R133). -/
def execWindRead (p : Port) (tag : Byte) (s : State) : Result :=
  requestArrives p tag .windRead s

/-- INPUTS_READ (R150). -/
def execInputsRead (p : Port) (tag : Byte) (s : State) : Result :=
  requestArrives p tag .inputsRead s

/-- FAULT_READ (R169). -/
def execFaultRead (p : Port) (tag bank : Byte) (s : State) : Result :=
  requestArrives p tag (.faultRead bank) s

/-- TRIAL_READ (R54). -/
def execTrialRead (p : Port) (tag : Byte) (s : State) : Result :=
  requestArrives p tag .trialRead s

/-- CONFIG_GET (R181). -/
def execConfigGet (p : Port) (tag table index : Byte) (s : State) : Result :=
  requestArrives p tag (.configGet table index) s

/-- CONFIG_SET_GEOMETRY (R180, R1). -/
def execConfigSetGeometry (p : Port) (tag index : Byte) (values : List (Byte × Quad)) (s : State) : Result :=
  requestArrives p tag (.configSet 1 index values) s

/-- CONFIG_SET_ZONES (R180, R2). -/
def execConfigSetZones (p : Port) (tag index : Byte) (values : List (Byte × Quad)) (s : State) : Result :=
  requestArrives p tag (.configSet 2 index values) s

/-- CONFIG_SET_SPEEDS (R180, R19). -/
def execConfigSetSpeeds (p : Port) (tag index : Byte) (values : List (Byte × Quad)) (s : State) : Result :=
  requestArrives p tag (.configSet 3 index values) s

/-- CONFIG_SET_RING (R180, R59). -/
def execConfigSetRing (p : Port) (tag index : Byte) (values : List (Byte × Quad)) (s : State) : Result :=
  requestArrives p tag (.configSet 4 index values) s

/-- CONFIG_SET_BOARDING (R180, R78). -/
def execConfigSetBoarding (p : Port) (tag index : Byte) (values : List (Byte × Quad)) (s : State) : Result :=
  requestArrives p tag (.configSet 5 index values) s

/-- CONFIG_SET_BALANCE (R180, R113). -/
def execConfigSetBalance (p : Port) (tag index : Byte) (values : List (Byte × Quad)) (s : State) : Result :=
  requestArrives p tag (.configSet 6 index values) s

/-- CONFIG_SET_WIND_CHANNELS (R180, R117). -/
def execConfigSetWindChannels (p : Port) (tag index : Byte) (values : List (Byte × Quad)) (s : State) : Result :=
  requestArrives p tag (.configSet 7 index values) s

/-- CONFIG_SET_INPUTS (R180, R149). -/
def execConfigSetInputs (p : Port) (tag index : Byte) (values : List (Byte × Quad)) (s : State) : Result :=
  requestArrives p tag (.configSet 8 index values) s

/-- CONFIG_SET_FAULT_CTL (R180, R160). -/
def execConfigSetFaultCtl (p : Port) (tag index : Byte) (values : List (Byte × Quad)) (s : State) : Result :=
  requestArrives p tag (.configSet 9 index values) s

/-- CONFIG_SET_LINK (R180, R151). -/
def execConfigSetLink (p : Port) (tag index : Byte) (values : List (Byte × Quad)) (s : State) : Result :=
  requestArrives p tag (.configSet 10 index values) s

/-- COMMISSION (R186). -/
def execCommission (p : Port) (tag : Byte) (s : State) : Result :=
  requestArrives p tag .commission s

/-- DECOMMISSION (R187). -/
def execDecommission (p : Port) (tag : Byte) (s : State) : Result :=
  requestArrives p tag .decommission s

/-- RESTART (R188). -/
def execRestart (p : Port) (tag : Byte) (s : State) : Result :=
  requestArrives p tag .restart s

/-- RUN_ON (R27). -/
def execRunOn (p : Port) (tag : Byte) (s : State) : Result :=
  requestArrives p tag (.run 1) s

/-- RUN_OFF (R27). -/
def execRunOff (p : Port) (tag : Byte) (s : State) : Result :=
  requestArrives p tag (.run 0) s

/-- HOLD_SET (R140). -/
def execHoldSet (p : Port) (tag reason level : Byte) (s : State) : Result :=
  requestArrives p tag (.holdSet reason level) s

/-- HOLD_RELEASE (R141). -/
def execHoldRelease (p : Port) (tag reason : Byte) (s : State) : Result :=
  requestArrives p tag (.holdRelease reason) s

/-- GROUP_ADD (R104). -/
def execGroupAdd (p : Port) (tag : Byte) (id : Half) (size : Byte) (mass : Half) (accessible : Byte) (s : State) : Result :=
  requestArrives p tag (.groupAdd id size mass accessible) s

/-- GROUP_WITHDRAW (R106). -/
def execGroupWithdraw (p : Port) (tag : Byte) (id : Half) (s : State) : Result :=
  requestArrives p tag (.groupWithdraw id) s

/-- DOOR_RETRY (R92). -/
def execDoorRetry (p : Port) (tag cabin : Byte) (s : State) : Result :=
  requestArrives p tag (.doorRetry cabin) s

/-- FACTOR_CLEAR (R148). -/
def execFactorClear (p : Port) (tag group : Byte) (s : State) : Result :=
  requestArrives p tag (.factorClear group) s

/-- MOVE_SUBMIT_STOP_CABIN (R45, R46). -/
def execMoveSubmitStopCabin (p : Port) (tag cabin : Byte) (s : State) : Result :=
  requestArrives p tag (.moveSubmit 1 cabin) s

/-- MOVE_SUBMIT_ADVANCE (R45, R46). -/
def execMoveSubmitAdvance (p : Port) (tag count : Byte) (s : State) : Result :=
  requestArrives p tag (.moveSubmit 2 count) s

/-- MOVE_CANCEL (R50). -/
def execMoveCancel (p : Port) (tag : Byte) (number : Half) (s : State) : Result :=
  requestArrives p tag (.moveCancel number) s

/-- MOVE_RESUME (R49). -/
def execMoveResume (p : Port) (tag : Byte) (number : Half) (s : State) : Result :=
  requestArrives p tag (.moveResume number) s

/-- CABIN_SERVICE_IN (R97). -/
def execCabinServiceIn (p : Port) (tag cabin : Byte) (s : State) : Result :=
  requestArrives p tag (.cabinService cabin 1) s

/-- CABIN_SERVICE_OUT (R97). -/
def execCabinServiceOut (p : Port) (tag cabin : Byte) (s : State) : Result :=
  requestArrives p tag (.cabinService cabin 2) s

/-- WIND_PROFILE_WRITE (R127). -/
def execWindProfileWrite (p : Port) (tag profile : Byte) (values : List Half) (s : State) : Result :=
  requestArrives p tag (.windProfileWrite profile values) s

/-- WIND_PROFILE_SELECT (R128). -/
def execWindProfileSelect (p : Port) (tag profile : Byte) (s : State) : Result :=
  requestArrives p tag (.windProfileSelect profile) s

/-- FAULT_ACK (R166). -/
def execFaultAck (p : Port) (tag bank : Byte) (s : State) : Result :=
  requestArrives p tag (.faultAck bank) s

/-- FAULT_CLEAR (R167). -/
def execFaultClear (p : Port) (tag bank : Byte) (s : State) : Result :=
  requestArrives p tag (.faultClear bank) s

/-- COUNTER_CLEAR (R168). -/
def execCounterClear (p : Port) (tag bank : Byte) (s : State) : Result :=
  requestArrives p tag (.counterClear bank) s

/-- FAULT_MASK_SET (R158). -/
def execFaultMaskSet (p : Port) (tag bank code : Byte) (s : State) : Result :=
  requestArrives p tag (.faultMask bank code 1) s

/-- FAULT_MASK_CLEAR (R158). -/
def execFaultMaskClear (p : Port) (tag bank code : Byte) (s : State) : Result :=
  requestArrives p tag (.faultMask bank code 0) s

/-- DECEL_TRIAL_START (R55). -/
def execDecelTrialStart (p : Port) (tag : Byte) (s : State) : Result :=
  requestArrives p tag .decelTrialStart s

/-- CLEAR_TRIP (R26). -/
def execClearTrip (p : Port) (tag : Byte) (s : State) : Result :=
  requestArrives p tag .clearTrip s

end Sys2Proof.Machine
end

