-- ==== Sys2Proof/Machine/Dispatch.lean ====
section
/-! DEFINITION. The one dispatch: the meaning of every command. -/

namespace Sys2Proof.Machine

def exec (i : Instr) (s : State) : Host.Outcome State Fault Refusal :=
  match i with
  | .coldReset => Sys2Proof.Machine.execColdReset s
  | .coldResetEnd => Sys2Proof.Machine.execColdResetEnd s
  | .controlUpdate => Sys2Proof.Machine.execControlUpdate s
  | .indexMark => Sys2Proof.Machine.execIndexMark s
  | .standstill => Sys2Proof.Machine.execStandstill s
  | .trackingError => Sys2Proof.Machine.execTrackingError s
  | .trackingGraceExpiry => Sys2Proof.Machine.execTrackingGraceExpiry s
  | .brakeReleasedArrival => Sys2Proof.Machine.execBrakeReleasedArrival s
  | .brakeReleaseTimeout => Sys2Proof.Machine.execBrakeReleaseTimeout s
  | .brakeSetArrival => Sys2Proof.Machine.execBrakeSetArrival s
  | .brakeSetTimeout => Sys2Proof.Machine.execBrakeSetTimeout s
  | .driveReadyChange line present => Sys2Proof.Machine.execDriveReadyChange line present s
  | .standTimerExpiry => Sys2Proof.Machine.execStandTimerExpiry s
  | .ringRequestSent => Sys2Proof.Machine.execRingRequestSent s
  | .ringReplyReceived reply => Sys2Proof.Machine.execRingReplyReceived reply s
  | .nodeTimeout => Sys2Proof.Machine.execNodeTimeout s
  | .windSample => Sys2Proof.Machine.execWindSample s
  | .channelImplausible ch => Sys2Proof.Machine.execChannelImplausible ch s
  | .channelRecovery ch => Sys2Proof.Machine.execChannelRecovery ch s
  | .warmUpEnd => Sys2Proof.Machine.execWarmUpEnd s
  | .calmPeriodExpiry => Sys2Proof.Machine.execCalmPeriodExpiry s
  | .inputRawChange input value => Sys2Proof.Machine.execInputRawChange input value s
  | .inputChange input => Sys2Proof.Machine.execInputChange input s
  | .presenceTimerExpiry p => Sys2Proof.Machine.execPresenceTimerExpiry p s
  | .linkByteReceived p b stopBit => Sys2Proof.Machine.execLinkByteReceived p b stopBit s
  | .frameTimeout p => Sys2Proof.Machine.execFrameTimeout p s
  | .transmitDone p => Sys2Proof.Machine.execTransmitDone p s
  | .requestUnknownKind p tag kind payload => Sys2Proof.Machine.execRequestUnknownKind p tag kind payload s
  | .status p tag => Sys2Proof.Machine.execStatus p tag s
  | .cabinRead p tag cabin => Sys2Proof.Machine.execCabinRead p tag cabin s
  | .queueRead p tag first => Sys2Proof.Machine.execQueueRead p tag first s
  | .holdList p tag => Sys2Proof.Machine.execHoldList p tag s
  | .moveRead p tag => Sys2Proof.Machine.execMoveRead p tag s
  | .windRead p tag => Sys2Proof.Machine.execWindRead p tag s
  | .inputsRead p tag => Sys2Proof.Machine.execInputsRead p tag s
  | .faultRead p tag bank => Sys2Proof.Machine.execFaultRead p tag bank s
  | .trialRead p tag => Sys2Proof.Machine.execTrialRead p tag s
  | .configGet p tag table index => Sys2Proof.Machine.execConfigGet p tag table index s
  | .configSetGeometry p tag index values => Sys2Proof.Machine.execConfigSetGeometry p tag index values s
  | .configSetZones p tag index values => Sys2Proof.Machine.execConfigSetZones p tag index values s
  | .configSetSpeeds p tag index values => Sys2Proof.Machine.execConfigSetSpeeds p tag index values s
  | .configSetRing p tag index values => Sys2Proof.Machine.execConfigSetRing p tag index values s
  | .configSetBoarding p tag index values => Sys2Proof.Machine.execConfigSetBoarding p tag index values s
  | .configSetBalance p tag index values => Sys2Proof.Machine.execConfigSetBalance p tag index values s
  | .configSetWindChannels p tag index values => Sys2Proof.Machine.execConfigSetWindChannels p tag index values s
  | .configSetInputs p tag index values => Sys2Proof.Machine.execConfigSetInputs p tag index values s
  | .configSetFaultCtl p tag index values => Sys2Proof.Machine.execConfigSetFaultCtl p tag index values s
  | .configSetLink p tag index values => Sys2Proof.Machine.execConfigSetLink p tag index values s
  | .commission p tag => Sys2Proof.Machine.execCommission p tag s
  | .decommission p tag => Sys2Proof.Machine.execDecommission p tag s
  | .restart p tag => Sys2Proof.Machine.execRestart p tag s
  | .runOn p tag => Sys2Proof.Machine.execRunOn p tag s
  | .runOff p tag => Sys2Proof.Machine.execRunOff p tag s
  | .holdSet p tag reason level => Sys2Proof.Machine.execHoldSet p tag reason level s
  | .holdRelease p tag reason => Sys2Proof.Machine.execHoldRelease p tag reason s
  | .groupAdd p tag id size mass accessible => Sys2Proof.Machine.execGroupAdd p tag id size mass accessible s
  | .groupWithdraw p tag id => Sys2Proof.Machine.execGroupWithdraw p tag id s
  | .doorRetry p tag cabin => Sys2Proof.Machine.execDoorRetry p tag cabin s
  | .factorClear p tag group => Sys2Proof.Machine.execFactorClear p tag group s
  | .moveSubmitStopCabin p tag cabin => Sys2Proof.Machine.execMoveSubmitStopCabin p tag cabin s
  | .moveSubmitAdvance p tag count => Sys2Proof.Machine.execMoveSubmitAdvance p tag count s
  | .moveCancel p tag number => Sys2Proof.Machine.execMoveCancel p tag number s
  | .moveResume p tag number => Sys2Proof.Machine.execMoveResume p tag number s
  | .cabinServiceIn p tag cabin => Sys2Proof.Machine.execCabinServiceIn p tag cabin s
  | .cabinServiceOut p tag cabin => Sys2Proof.Machine.execCabinServiceOut p tag cabin s
  | .windProfileWrite p tag profile values => Sys2Proof.Machine.execWindProfileWrite p tag profile values s
  | .windProfileSelect p tag profile => Sys2Proof.Machine.execWindProfileSelect p tag profile s
  | .faultAck p tag bank => Sys2Proof.Machine.execFaultAck p tag bank s
  | .faultClear p tag bank => Sys2Proof.Machine.execFaultClear p tag bank s
  | .counterClear p tag bank => Sys2Proof.Machine.execCounterClear p tag bank s
  | .faultMaskSet p tag bank code => Sys2Proof.Machine.execFaultMaskSet p tag bank code s
  | .faultMaskClear p tag bank code => Sys2Proof.Machine.execFaultMaskClear p tag bank code s
  | .decelTrialStart p tag => Sys2Proof.Machine.execDecelTrialStart p tag s
  | .clearTrip p tag => Sys2Proof.Machine.execClearTrip p tag s
  | .serviceClockTick => Sys2Proof.Machine.execServiceClockTick s
  | .encoderCount counts => Sys2Proof.Machine.execEncoderCount counts s
  | .anemometerPulse ch => Sys2Proof.Machine.execAnemometerPulse ch s

end Sys2Proof.Machine
end

