-- ==== Sys2Proof/WellFormed.lean ====
section
/-! DEFINITION. Which commands can be sent: the operands that a line of the part can carry. A command whose field is out of
its rule's range is well formed: the owning rule judges the field and answers a refusal. -/

namespace Sys2Proof

/-- The most bytes of payload a frame carries (R172: LEN 2 to 202, KIND and TAG counted). -/
abbrev maxPayload : Nat := 200

/-- A CONFIG_SET writes 1 to 39 values (R189: 2 + 5m bytes, at most 200). -/
def valueListOk (values : List (Byte × Quad)) : Bool := decide (1 ≤ values.length ∧ values.length ≤ 39)

/-- A WIND_PROFILE_WRITE carries seventeen values (R127). -/
def profileValuesOk (values : List Half) : Bool := values.length == 17

/-- A request whose fields fill its payload as chapter 11 lays it out. -/
def Request.wellFormed : Request → Bool
  | .configSet _ _ values => valueListOk values
  | .windProfileWrite _ values => profileValuesOk values
  | .status | .cabinRead _ | .queueRead _ | .holdList | .moveRead | .windRead | .inputsRead | .faultRead _ | .trialRead
  | .configGet _ _ | .commission | .decommission | .restart | .run _ | .holdSet _ _ | .holdRelease _
  | .groupAdd _ _ _ _ | .groupWithdraw _ | .doorRetry _ | .factorClear _ | .moveSubmit _ _ | .moveCancel _
  | .moveResume _ | .cabinService _ _ | .windProfileSelect _ | .faultAck _ | .faultClear _ | .counterClear _
  | .faultMask _ _ _ | .decelTrialStart | .clearTrip => true

/-- A ring reply is seven bytes (R190). -/
def ringReplyOk (reply : List Byte) : Bool := reply.length == 7

/-- A KIND that no request of the catalogue has: the request kinds are 0x01 to 0x21 (chapter 11, Kinds). -/
def unknownKindOk (kind : Byte) : Bool := decide (kind.toNat = 0 ∨ 0x21 < kind.toNat)

/-- A payload that fits a frame (R172). -/
def payloadOk (payload : List Byte) : Bool := decide (payload.length ≤ maxPayload)

/-- A move of the encoder that one difference of counter values can show (R3). -/
def encoderStepOk (counts : Int) : Bool := decide (-2147483648 ≤ counts ∧ counts ≤ 2147483647)

/-- A command that can be sent. -/
def Instr.wellFormed : Instr → Bool
  | .ringReplyReceived reply => ringReplyOk reply
  | .requestUnknownKind _ _ kind payload => unknownKindOk kind && payloadOk payload
  | .configSetGeometry _ _ _ values => valueListOk values
  | .configSetZones _ _ _ values => valueListOk values
  | .configSetSpeeds _ _ _ values => valueListOk values
  | .configSetRing _ _ _ values => valueListOk values
  | .configSetBoarding _ _ _ values => valueListOk values
  | .configSetBalance _ _ _ values => valueListOk values
  | .configSetWindChannels _ _ _ values => valueListOk values
  | .configSetInputs _ _ _ values => valueListOk values
  | .configSetFaultCtl _ _ _ values => valueListOk values
  | .configSetLink _ _ _ values => valueListOk values
  | .windProfileWrite _ _ _ values => profileValuesOk values
  | .encoderCount counts => encoderStepOk counts
  | .coldReset | .coldResetEnd | .controlUpdate | .indexMark | .standstill | .trackingError | .trackingGraceExpiry
  | .brakeReleasedArrival | .brakeReleaseTimeout | .brakeSetArrival | .brakeSetTimeout | .driveReadyChange _ _
  | .standTimerExpiry | .ringRequestSent | .nodeTimeout | .windSample | .channelImplausible _ | .channelRecovery _
  | .warmUpEnd | .calmPeriodExpiry | .inputRawChange _ _ | .inputChange _ | .presenceTimerExpiry _
  | .linkByteReceived _ _ _ | .frameTimeout _ | .transmitDone _ | .status _ _ | .cabinRead _ _ _ | .queueRead _ _ _
  | .holdList _ _ | .moveRead _ _ | .windRead _ _ | .inputsRead _ _ | .faultRead _ _ _ | .trialRead _ _
  | .configGet _ _ _ _ | .commission _ _ | .decommission _ _ | .restart _ _ | .runOn _ _ | .runOff _ _
  | .holdSet _ _ _ _ | .holdRelease _ _ _ | .groupAdd _ _ _ _ _ _ | .groupWithdraw _ _ _ | .doorRetry _ _ _
  | .factorClear _ _ _ | .moveSubmitStopCabin _ _ _ | .moveSubmitAdvance _ _ _ | .moveCancel _ _ _ | .moveResume _ _ _
  | .cabinServiceIn _ _ _ | .cabinServiceOut _ _ _ | .windProfileSelect _ _ _ | .faultAck _ _ _ | .faultClear _ _ _
  | .counterClear _ _ _ | .faultMaskSet _ _ _ _ | .faultMaskClear _ _ _ _ | .decelTrialStart _ _ | .clearTrip _ _
  | .serviceClockTick | .anemometerPulse _ => true

end Sys2Proof
end

