-- ==== Sys2Proof/Safety.lean ====
section
/-! DEFINITION. What a sound state of the part is, in the terms that the statements use: each predicate is what the spec's
rules say of every state the part can be in. -/

namespace Sys2Proof.Machine

/-! ### The hold set (R136, R137, R138) -/

/-- An identity that the table of R137 has: a station's reason lies in 1..15. -/
def HoldId.legal : HoldId → Prop
  | .controlRoom r => 1 ≤ r ∧ r ≤ 15
  | .platformDesk r => 1 ≤ r ∧ r ≤ 15
  | .wind => True
  | .balance => True
  | .boarding => True
  | .inputs _ => True
  | .fault _ => True
  | .link _ => True

/-- The hold set as R136 to R138 have it: identities legal and all different, no entry at NONE, at most four entries of a
station, and both levels formed from the entries. -/
structure HoldsSound (h : Hlu) : Prop where
  legal : ∀ e ∈ h.entries, e.id.legal
  distinct : (h.entries.map HoldEntry.id).Nodup
  restrictive : ∀ e ∈ h.entries, e.level ≠ .none
  stations : ∀ p : Port, (h.entries.filter fun e => e.id.ofStation p).length ≤ 4
  effective : h.effective = highestLevel h.entries
  other : h.other = highestLevel (h.entries.filter fun e => e.id != .boarding)

/-! ### Entries and their owners (R131, R147, R158, R163) -/

/-- The entries that a block keeps agree with what it holds: the wind level with the WIND entry (R131), each group with its
INPUTS entry (R147), each pending bank with its FAULT entry (R163), and masks name SIGNAL codes of their bank (R158). -/
structure EntriesAgree (s : State) : Prop where
  wind : (s.hold .wind).map HoldEntry.level = if s.wmn.level = .calm then none else some s.wmn.level.hold
  inputs : ∀ g, (s.hold (.inputs g)).map HoldEntry.level = if (s.group g).calls then some (s.group g).level else none
  banks : ∀ b, (s.hold (.fault b)).map HoldEntry.level = (s.bank b).hold.map FaultAction.level
  masks : ∀ b i, (s.bank b).mask.getLsbD i = true → ∃ c : FaultCode, c.number = i + 1 ∧ c.bank = b ∧ c.scope = .signal

/-! ### Bring-home (R98) -/

/-- The bring-home entry after a change of the hold set that leads from s to t: kept in CONFIG; in SERVICE none unless the other
level is UNLOAD_ONLY, and then kept, or inserted at STOP once no cabin is occupied and no door is out. -/
def bringsHome (s t : State) : Prop :=
  (s.cfs.device = .config → t.hold .boarding = s.hold .boarding) ∧
  (s.cfs.device = .service →
    (t.hlu.other ≠ .unloadOnly → t.hold .boarding = none) ∧
    (t.hlu.other = .unloadOnly →
      let busy := (∃ k, 1 ≤ k ∧ k ≤ s.cfs.geometry.n ∧ s.occupied k = true) ∨ ∃ k, s.hasDoor k = true
      ((s.hold .boarding).isSome = true ∨ busy → t.hold .boarding = s.hold .boarding) ∧
      (s.hold .boarding = none → ¬busy →
        t.hold .boarding = some { id := .boarding, level := .stop, time := s.cfs.clock })))

/-! ### The wheel (R18, R20, R24, R25, R31, R34 to R36, R39) -/

/-- The wheel as chapter 2 has it: TRIPPED at PARK, parked in CONFIG, at a commanded speed of 0 outside RUNNING, its drive
reference that of its commanded speed, a trial step only in RUNNING, at a commanded speed of 0, the commanded speed never
above cruise (R34), and a_eff between a_min and a_cfg (R35). -/
structure WheelSound (s : State) : Prop where
  park : s.hlu.effective = .park → s.roc.rotation = .tripped
  config : s.cfs.device = .config → s.wheelParked = true
  still : s.roc.rotation ≠ .running → s.roc.vCmd = 0
  reference : s.roc.driveRef = driveWord s.roc.vCmd
  trial : s.roc.trialStep = true → s.roc.rotation = .running ∧ s.roc.vCmd = 0
  cruise : s.roc.vCmd ≤ s.cfs.speeds.cruise * 1000
  decel : s.cfs.speeds.aMin ≤ s.roc.aEff ∧ s.roc.aEff ≤ s.cfs.speeds.aCfg

/-- The limit-point list as R31 has it: the identities all different, so that there is at most one MOVE and one SLOW entry,
and at most four DOOR entries. -/
structure PointsSound (l : List LimitPoint) : Prop where
  distinct : (l.map LimitPoint.origin).Nodup
  doors : (l.filter LimitPoint.isDoor).length ≤ 4

/-! ### Moves and the trial (R47, R54) -/

/-- Slot B is PENDING only while slot A is ACTIVE or ARRIVED (R47), and a trial measures only under a trial step (R54). -/
structure MovesSound (s : State) : Prop where
  slots : s.pendingB = true → s.occupiedA = true
  trial : s.mvu.trial.status = .measuring → s.roc.trialStep = true

/-! ### The group queue (R103, R107) -/

/-- The queue holds at most 32 records, and no group id is held in two places of queue and manifests. -/
structure GroupsSound (s : State) : Prop where
  bound : s.bsq.queue.length ≤ 32
  distinct : s.heldIds.Nodup

/-! ### The blocks together -/

/-- The invariants of the Hold Unit, the Rotation Controller, the Move Unit and the Boarding Sequencer's queue. -/
structure BlocksSound (s : State) : Prop where
  holds : HoldsSound s.hlu
  wheel : WheelSound s
  points : PointsSound s.roc.limits
  moves : MovesSound s
  groups : GroupsSound s

/-! ### The tracking check and the trip of an update (R25, R38) -/

/-- The tracking check is made after a Rotation Controller's step that leads from w to r, and finds the measured speed off the
commanded one by more than the limit (R38; an update at whose start a trial step is in force makes none: log 25). -/
def tracksOff (w r : State) : Prop :=
  (r.roc.rotation = .running ∨ r.roc.rotation = .standing) ∧ r.roc.grace = none ∧ w.roc.trialStep = false ∧
    r.roc.trialStep = false ∧ r.cfs.speeds.trackLim < (r.ptr.speed - ((r.roc.vCmd / 1000 : Nat) : Int)).natAbs

/-- How an update that took its Rotation Controller's step in w may leave the wheel TRIPPED in t: at PARK, and by the report of
TRACKING_ERROR or by DECEL_INSUFFICIENT in a bank that is already pending at STOP (R25, R38, R57, R164). -/
structure TripsAtPark (w t : State) : Prop where
  level : t.roc.rotation = .tripped ↔ t.hlu.effective = .park
  rest : t.roc.rotation = .tripped → t.roc.vCmd = 0 ∧ t.roc.driveRef = 0 ∧ t.roc.tracking = 0 ∧
    t.roc.releaseTimer = none ∧ t.roc.standTimer = none ∧ t.roc.grace = none ∧ t.roc.trialStep = false
  cause : t.roc.rotation = .tripped →
    (tracksOff w (rotationStep w) ∧ 19 ≤ (rotationStep w).roc.tracking) ∨
    (w.mvu.trial.status = .measuring ∧ w.ptr.standstill = true ∧ (w.bank .rotation).hold = some .stop)
  tracking : tracksOff w (rotationStep w) → 19 ≤ (rotationStep w).roc.tracking →
    (w.bank .rotation).mask.getLsbD 2 = false → (w.bank .rotation).hold ≠ some .park → t.roc.rotation = .tripped

/-! ### The link ports (R174, R175, R177) -/

/-- A port that has done what it can: an idle transmitter has nothing to send, an empty reply slot has no frame waiting,
and FIFO and outbox keep their bounds. -/
structure PortSound (q : PortState) : Prop where
  idle : q.transmitter = none → q.reply = none ∧ q.outbox = []
  taken : q.reply = none → q.fifo = []
  fifo : q.fifo.length ≤ 2
  outbox : q.outbox.length ≤ 16

/-- Both ports are sound. -/
def PortsSound (s : State) : Prop := ∀ p : Port, PortSound (s.port p)

/-! ### A request at a free port (R152, R174 to R177) -/

/-- No reset is held, the port's FIFO and reply slot are empty, and no LINK entry stands for it: a valid frame is taken as a
request in the event of its arrival. -/
structure PortFree (p : Port) (s : State) : Prop where
  running : s.time.resetHeld = false
  fifo : (s.port p).fifo = []
  reply : (s.port p).reply = none
  link : s.hold (.link p) = none

/-- s after the presence handling of a valid frame on a port without LINK entry: in SERVICE, with a presence time other than
0, the port's timer starts again from 0 (R152). -/
def heard (p : Port) (s : State) : State :=
  if s.cfs.device = .service ∧ (s.port p).presenceTime ≠ 0 then setPort p (s.port p).presenceStarted s else s

/-- The state in which a request of a free port is handled: its frame heard, and the reply slot taken, so that what it
produces stays behind its reply (R175). -/
def taken (p : Port) (f : Frame) (s : State) : State :=
  setPort p { (heard p s).port p with reply := some (refusalFrame f .unknownKind 0) } (heard p s)

/-- t with a reply in the port's slot, which an idle transmitter begins at once (R175, R177). -/
def withReply (p : Port) (r : Frame) (t : State) : State := pump p (setPort p { t.port p with reply := some r } t)

/-- The reply to an accepted request: its KIND plus 0x40, its TAG, and the payload its rule gives (R176). -/
def acceptedReply (f : Frame) (payload : List Byte) : Frame := { kind := f.kind + 0x40, tag := f.tag, payload := payload }

/-- The next state of a request that a free port takes and its block accepts: the payload of the reply, and the state after
the effect, which is taken on taken p f s. -/
def accepts (p : Port) (f : Frame) (payload : List Byte) (t : State) : Result :=
  .next (withReply p (acceptedReply f payload) t)

/-- The next state of a request that a free port takes and refuses: the reply, and nothing else (R176). -/
def refuses (p : Port) (f : Frame) (reason : Reason) (field : Nat) (s : State) : Result :=
  .next (withReply p (refusalFrame f reason field) (heard p s))

/-! ### Bytes on a line (R173) -/

/-- The bytes given arrive on a port one after the other, each with its stop bit. -/
def receiveAll (p : Port) : List Byte → State → Result
  | [], s => .next s
  | b :: bs, s =>
    match exec (.linkByteReceived p b true) s with
    | .next t => receiveAll p bs t
    | .fault f => .fault f
    | .refused r => .refused r

/-! ### While a reset is held (log 3) -/

/-- The commands that act while a reset is held: the two of the reset itself, the encoder, and the pins. -/
def actsUnderReset : Instr → Bool
  | .coldReset => true
  | .coldResetEnd => true
  | .encoderCount _ => true
  | .brakeReleasedArrival => true
  | .brakeSetArrival => true
  | .driveReadyChange _ _ => true
  | .inputRawChange _ _ => true
  | _ => false

end Sys2Proof.Machine
end

