-- ==== Sys2Proof/Certificates/Slice0/Obligations.lean ====
section
/-! DEFINITION. The statements for the provers. A request is the arrival of its whole valid frame (log 6); f stands for that
frame, and u for the state in which a free port handles it (taken p f s): s but for the sending port's presence timer and
reply slot. -/

section

open Sys2Proof Sys2Proof.Machine

/-! ### The step -/

/-- A step takes the front command and executes it with the queue's rest (this model's choice: log 1). -/
def Obligations.StepRunsFrontCommand : Prop :=
  ∀ (c : Instr) (rest : List Instr) (s : State),
    step { s with pending := c :: rest } = exec c { s with pending := rest }

/-- With an empty queue the part's own clock goes on by one millisecond: every timer goes on, and one that has reached its
time puts its expiry command into the queue (this model's choice: log 1), the reply wait at the table's present T_node
(this model's choice: log 37) and a presence timer at the time that it was started with. While a reset is held no time
passes (this model's choice: log 3). A port's late-expiry flag, the model's own, goes (log 49). -/
def Obligations.EmptyQueueTicks : Prop :=
  ∀ s : State, s.pending = [] →
    (s.time.resetHeld = true → step s = .next s) ∧
    (s.time.resetHeld = false → ∃ t, step s = .next t ∧
      t.time.control = (if s.time.control + 1 < 50 then s.time.control + 1 else 0) ∧
      t.time.sample = (if s.time.sample + 1 < 250 then s.time.sample + 1 else 0) ∧
      t.time.second = (if s.time.second + 1 < 1000 then s.time.second + 1 else 0) ∧
      (Instr.controlUpdate ∈ t.pending ↔ 50 ≤ s.time.control + 1) ∧
      (Instr.windSample ∈ t.pending ↔ 250 ≤ s.time.sample + 1) ∧
      (Instr.serviceClockTick ∈ t.pending ↔ 1000 ≤ s.time.second + 1) ∧
      t.roc.releaseTimer = s.roc.releaseTimer.map (· + 1) ∧ t.roc.standTimer = s.roc.standTimer.map (· + 1) ∧
      t.roc.brakeSetTimer = s.roc.brakeSetTimer.map (· + 1) ∧ t.roc.grace = s.roc.grace.map (· + 1) ∧
      (Instr.brakeReleaseTimeout ∈ t.pending ↔ ∃ e, s.roc.releaseTimer = some e ∧ 3000 ≤ e + 1) ∧
      (Instr.standTimerExpiry ∈ t.pending ↔ ∃ e, s.roc.standTimer = some e ∧ s.cfs.speeds.tStand * 1000 ≤ e + 1) ∧
      (Instr.brakeSetTimeout ∈ t.pending ↔ ∃ e, s.roc.brakeSetTimer = some e ∧ 2000 ≤ e + 1) ∧
      (Instr.trackingGraceExpiry ∈ t.pending ↔ ∃ e, s.roc.grace = some e ∧ 2000 ≤ e + 1) ∧
      t.cru = { s.cru with flight := s.cru.flight.map fun x => { x with wait := x.wait.map (· + 1) } } ∧
      (Instr.nodeTimeout ∈ t.pending ↔ ∃ x e, s.cru.flight = some x ∧ x.wait = some e ∧ s.cfs.ring.tNode ≤ e + 1) ∧
      (∀ i : Fin 16, t.input i.val = { s.input i.val with timer := (s.input i.val).timer.map (· + 1) } ∧
        (Instr.inputChange i ∈ t.pending ↔ ∃ e, (s.input i.val).timer = some e ∧ 20 ≤ e + 1)) ∧
      (∀ p : Port,
        ({ t.port p with
            presence := (s.port p).presence, receiver := (s.port p).receiver, lateExpiry := (s.port p).lateExpiry } :
          PortState) = s.port p ∧
        (t.port p).presence = (s.port p).presence.map (fun x => { x with elapsed := x.elapsed + 1 }) ∧
        (t.port p).lateExpiry = false ∧
        ((s.port p).receiver = .hunting → (t.port p).receiver = .hunting) ∧
        (∀ bytes e, (s.port p).receiver = .inFrame bytes e → (t.port p).receiver = .inFrame bytes (e + 1)) ∧
        (Instr.presenceTimerExpiry p ∈ t.pending ↔
          ∃ x, (s.port p).presence = some x ∧ x.time * 1000 ≤ x.elapsed + 1) ∧
        (Instr.frameTimeout p ∈ t.pending ↔ ∃ bytes e, (s.port p).receiver = .inFrame bytes e ∧ 30 ≤ e + 1)) ∧
      t.pim.g0 = s.pim.g0 ∧ t.pim.g1 = s.pim.g1 ∧
      t.ptr = s.ptr ∧ t.mvu = s.mvu ∧ t.bsq = s.bsq ∧ t.wmn = s.wmn ∧ t.hlu = s.hlu ∧ t.fbu = s.fbu ∧ t.cfs = s.cfs)

/-- No command faults or is refused as a step, and none touches the commands that wait (this model's choice: log 1). While
a reset is held only the reset commands, the encoder and the pins act; every other command leaves the state as it was
(this model's choice: log 3). -/
def Obligations.EveryCommandCompletes : Prop :=
  ∀ (c : Instr) (s : State),
    (∃ t, exec c s = .next t ∧ t.pending = s.pending) ∧
    (s.time.resetHeld = true → actsUnderReset c = false → exec c s = .next s)

/-! ### Invariants -/

/-- Every step keeps the hold set, the wheel, the limit points, the moves and the group queue sound: at PARK the wheel is
TRIPPED, outside RUNNING its commanded speed is 0, the commanded speed is never above cruise, the drive reference is that
of the commanded speed, a_eff lies between a_min and a_cfg, the list holds at most four DOOR entries and no identity
twice, slot B is PENDING only while slot A is occupied, a trial measures only under a trial step, both levels are those of
the set, and a group id is held in one place at most. It also keeps the hold entries in agreement with their owners: the
wind level, the groups and the pending banks; and the masks on SIGNAL codes of their bank. -/
def Obligations.StepKeepsBlocksSound : Prop :=
  (∀ s t : State, BlocksSound s → step s = .next t → BlocksSound t) ∧
  ∀ s t : State, HoldsSound s.hlu → EntriesAgree s → step s = .next t → EntriesAgree t

/-- Every step keeps both link ports sound: an idle transmitter has nothing to send, an empty reply slot has no frame
waiting, and FIFO and outbox keep their bounds. -/
def Obligations.StepKeepsPortsSound : Prop :=
  ∀ s t : State, PortsSound s → step s = .next t → PortsSound t

/-- The state right after the cold reset is sound, and its hold entries agree with their owners. -/
def Obligations.ResetStateIsSound : Prop :=
  BlocksSound State.reset ∧ PortsSound State.reset ∧ EntriesAgree State.reset

/-- A sound hold set has at most 20 entries: the bounds of the eight sources add to 20. -/
def Obligations.SoundHoldSetHoldsTwenty : Prop := ∀ h : Hlu, HoldsSound h → h.entries.length ≤ 20

/-! ### Frames -/

/-- A request's KIND and payload read back as the request, whatever its fields, and its payload fits a frame. -/
def Obligations.RequestsReadBack : Prop :=
  ∀ r : Request, r.wellFormed = true →
    readRequest (requestKind r) (requestPayload r) = some r ∧ (requestPayload r).length ≤ 200

/-- A frame of any KIND, TAG and payload, sent byte by byte on a hunting port, is the arrival of that frame: for a
request, the command of the catalogue (this model's choice: log 6). -/
def Obligations.WireBytesMakeFrame : Prop :=
  ∀ (p : Port) (s : State), s.time.resetHeld = false → (s.port p).receiver = .hunting →
    (∀ f : Frame, f.payload.length ≤ 200 → receiveAll p f.wire s = .next (frameArrives p f s)) ∧
    (∀ (tag : Byte) (r : Request), r.wellFormed = true →
      receiveAll p (requestFrame tag r).wire s = requestArrives p tag r s)

/-! ### Resets -/

/-- A cold reset, from its start to its end, whatever the encoder, the feedback lines and the input pins do in between:
every block and the ports at their reset values. The wheel is UNREFERENCED at angle 0 and BRAKED, the tables at their
defaults, the banks empty, the hold set holds the wind's NO_BOARD at GUSTY alone, and its LEVEL_CHANGED and WIND_LEVEL are
on their way (their order: logs 11 and 18). The brake-set timer runs from the end of the reset, unless BRAKE_SET is found
present, and the filtered inputs are taken at the end. The reset is held until COLD_RESET_END, which does nothing at any
other time (this model's choice: log 3). The counter and the lines are kept over it, and target, limiting term, the latest
update's word, waiting-drive-ready and the wind's latest sample are as before a first update and sample (this model's
choice: log 2). -/
def Obligations.ColdResetLeavesDefaults : Prop :=
  (∀ s : State, s.time.resetHeld = false → exec .coldResetEnd s = .next s) ∧
  ∀ s : State, ∃ u, exec .coldReset s = .next u ∧ u.time.resetHeld = true ∧ u.hlu.entries = [] ∧
    u.ptr.counter = s.ptr.counter ∧ u.roc.driveReady = s.roc.driveReady ∧ u.roc.brakeReleased = s.roc.brakeReleased ∧
    u.roc.brakeSet = s.roc.brakeSet ∧ u.pim.inputs.map Input.raw = s.pim.inputs.map Input.raw ∧
    ∀ (count : Count) (ready released set : Bool) (pins : List Bool),
      let held : State :=
        { u with
          ptr := { u.ptr with counter := count }
          roc := { u.roc with driveReady := ready, brakeReleased := released, brakeSet := set }
          pim := { u.pim with inputs := pins.map fun b => { raw := b, filtered := false, timer := none } } }
      let node : Node :=
        { state := .unknown, door := .unknown, load := 0, call := false, selfCheck := false, pending := none,
          taken := false, awayReported := false, lastAnswer := none }
      let cabin : Cabin :=
        { phase := .away, service := .inService, suspectCount := 0, cleanPass := false, manifest := none, lastPass := none,
          releaseTime := none, lockTime := none, closeAnswered := false, admittedThisPass := false, departureDue := false }
      let channel : ChannelRec :=
        { enable := false, kc := 0, validity := .disabled, ring := [], sampleCount := 0, gust := 0, meanQ := 0,
          initialised := false, mean := 0, clamped := false, zeroRun := 0, recoveryRun := 0, pulses := 0 }
      let profile : Profile :=
        { breeze := { enterGust := 120, enterMean := 80, exitGust := 100, exitMean := 60 }
          gusty := { enterGust := 160, enterMean := 110, exitGust := 140, exitMean := 90 }
          strong := { enterGust := 200, enterMean := 140, exitGust := 170, exitMean := 120 }
          severe := { enterGust := 250, enterMean := 180, exitGust := 220, exitMean := 150 }
          calmPeriod := 600 }
      let group : InputGroup :=
        { select := 0, expected := 0, level := .none, noticeEnable := false, isMatch := true, factor := false }
      let bank (threshold : Nat) : Bank :=
        { record := none, overflow := false, hold := none, counter := 0, thresholdReached := false, threshold := threshold,
          noticeCorrectable := false, noticeDeferred := true, mask := 0 }
      let port : PortState :=
        { receiver := .hunting, fifo := [], reply := none
          transmitter := some (.notice (.levelChanged .noBoard .none .wind .insertion (some .noBoard) 1 0))
          outbox := [.windLevel .gusty .noBoard none .reset 0 0 0 .p0 0]
          noticeLost := false, presence := none, lateExpiry := false, presenceTime := 10, presenceLevel := .noBoard }
      exec .coldResetEnd held = .next
        { ptr :=
            { counter := count, sample := count, angle := 0, referenced := false, latch := none, history := [], zeroRun := 0,
              standstill := false, speed := 0, passRecords := List.replicate 48 none }
          roc :=
            { rotation := .braked, runEnable := false, vCmd := 0, aEff := 40, limits := [], releaseTimer := none,
              brakeSetTimer := if set then none else some 0, brakeConfirmed := set, standTimer := none, tracking := 0,
              grace := none, trialStep := false, target := 0, limiting := .held, waitingDriveReady := false, driveRef := 0,
              updateRef := 0,
              driveReady := ready, brakeReleased := released, brakeSet := set }
          mvu :=
            { slotA := none, slotB := none, nextNumber := 1
              trial :=
                { status := .none, v0 := none, counts := none, distance := none, aMeas := none, aCand := none,
                  outcome := none, aEffAfter := none, abortCause := none, startTime := none, endTime := none } }
          cru :=
            { running := false, flight := none, windowPointer := none, roundPointer := 36, nextSlot := .window,
              nodes := List.replicate 48 node }
          bsq :=
            { cabins := List.replicate 48 cabin, slowTarget := none, slowCrossed := false, boardingMove := none, gate := none,
              queue := [], angles := none, sumX := 0, sumY := 0, sumQ := 0 }
          wmn :=
            { channels := { hub := channel, platform := channel, river := channel }, profile0 := profile,
              profile1 := profile, operative := .p0, level := .gusty, calm := 0, calmRuns := true, warmUp := 0,
              noValid := true, gust := 0, mean := 0, warranted := .calm, floorLevel := .calm,
              floorConds := { noValid := false, oneValid := false, warmUp := false } }
          hlu :=
            { entries := [{ id := .wind, level := .noBoard, time := 0 }], effective := .noBoard, other := .noBoard }
          pim :=
            { inputs := pins.map fun b => { raw := b, filtered := b, timer := none }, g0 := group, g1 := group }
          fbu := { rotation := bank 8, ring := bank 32, wind := bank 8, platform := bank 8, link := bank 16 }
          lkp := { p1 := port, p2 := port }
          cfs :=
            { device := .config, clock := 0, commissioned := none
              geometry := { n := 36, p := 8192, u := 1278, iRef := 0, tIdx := 24 }
              zones := { a := -12288, d := -4096, c := 4096, x := 8192, o := 128 }
              speeds :=
                { cruise := 260, board := 180, capSlow := 180, capNoBoard := 180, capUnloadOnly := 180, aAcc := 20,
                  aCfg := 40, aMin := 20, margin := 100, trackLim := 40, tStand := 20 }
              ring := { tNode := 20, tCloseMax := 4 }
              boarding := { empty := 30, capacity := 25, maxLoad := 2400, k := 3, tStop := 64, perPerson := 80 }
              balance := { lim := 750, warn := 600, clear := 450 } }
          time := { resetHeld := false, control := 0, sample := 0, second := 0 }
          pending := s.pending }

/-! ### The control update -/

/-- The wheel angle follows the counts, and an index mark sets it; a jump loses the reference. A referencing update seeds
each cabin's pass record with the last line at or below its position, and an update of a referenced wheel without mark and
forward movement raises no crossing. In SERVICE a referenced wheel that moves forward (a correction counts as read from
R6: log 34) raises a crossing for every line that a cabin passes after its record, cabin by cabin from the greatest
position and line by line, each with its effect; the cabin's record takes the last of them and becomes NONE at or beyond X
+ O. The encoder checks report a jump, a delta below -8, and an index mark that is off by more than T_idx on a referenced
wheel. The parts of the update up to the overrun check come in this order: the settled angle, the lowering of the limit
points (log 10), the reports, the seeding or the crossings, the clearing of the records, which is made at every update in
either device state (log 33), the overrun check (log 9). -/
def Obligations.ControlUpdateMovesWheelAngle : Prop :=
  ∀ s : State, s.time.resetHeld = false →
    let g := s.cfs.geometry
    let z := s.cfs.zones
    let d : Int := (s.ptr.counter - s.ptr.sample).toInt
    let j : Int := ((s.cfs.speeds.cruise * 100 + g.u - 1) / g.u + 16 : Nat)
    let cpr : Int := (g.n * g.p : Nat)
    let correction : Int :=
      match s.ptr.latch with
      | none => 0
      | some m =>
        let counted := (((s.ptr.angle : Int) + (m - s.ptr.sample).toInt) % cpr).toNat
        let ahead := (((g.iRef : Int) - counted) % cpr).toNat
        if 2 * ahead < g.n * g.p then ahead else (ahead : Int) - cpr
    let off : Prop := ∃ m, s.ptr.latch = some m ∧
      let counted := (((s.ptr.angle : Int) + (m - s.ptr.sample).toInt) % cpr).toNat
      (g.tIdx : Int) < min (((counted : Int) - g.iRef) % cpr) (((g.iRef : Int) - counted) % cpr)
    let settled := settleUpdate s
    let reported := encoderReports s.ptr settled
    ∃ t, exec .controlUpdate s = .next t ∧ t.ptr.counter = s.ptr.counter ∧ t.ptr.sample = s.ptr.counter ∧
      t.ptr.latch = none ∧ t.cfs = s.cfs ∧ t.wmn = s.wmn ∧ t.pim = s.pim ∧ t.time = s.time ∧
      (s.ptr.latch = none ∨ j < d → t.ptr.angle = (((s.ptr.angle : Int) + d) % ((g.n * g.p : Nat) : Int)).toNat) ∧
      (∀ m, s.ptr.latch = some m → ¬j < d →
        t.ptr.angle = (((g.iRef : Int) + (s.ptr.counter - m).toInt) % ((g.n * g.p : Nat) : Int)).toNat) ∧
      (j < d → t.ptr.referenced = false) ∧
      (¬j < d → t.ptr.referenced = (s.ptr.referenced || s.ptr.latch.isSome)) ∧
      (s.ptr.referenced = false → t.ptr.referenced = true → ∀ k, 1 ≤ k → k ≤ g.n →
        let x := g.position t.ptr.angle k
        (x < z.a ∨ z.x + z.o ≤ x → t.passRecord k = none) ∧
        (z.a ≤ x → x < z.x + z.o → ∃ ln, t.passRecord k = some ln ∧ z.line ln ≤ x ∧
          ∀ m, z.line m ≤ x → lineRank (some m) ≤ lineRank (some ln))) ∧
      (s.ptr.referenced = true → s.ptr.latch = none → d ≤ 0 →
        ∀ k, t.passRecord k = s.passRecord k ∨ t.passRecord k = none) ∧
      (s.cfs.device = .service → s.ptr.referenced = true → ¬j < d → 0 < d + correction →
        let passes (k : Nat) (ln : PlatformLine) : Prop :=
          g.position s.ptr.angle k < z.line ln ∧ z.line ln ≤ g.position t.ptr.angle k ∧
            lineRank (s.passRecord k) < lineRank (some ln)
        (∀ k, 1 ≤ k → k ≤ g.n → k ≤ s.ptr.passRecords.length →
          let x := g.position t.ptr.angle k
          (z.x + z.o ≤ x → t.passRecord k = none) ∧
          (x < z.x + z.o → (∀ ln, ¬passes k ln) → t.passRecord k = s.passRecord k) ∧
          (x < z.x + z.o → ∀ ln, passes k ln → (∀ m, passes k m → lineRank (some m) ≤ lineRank (some ln)) →
            t.passRecord k = some ln)) ∧
        ∀ raised : List (Nat × PlatformLine),
          (∀ k ln, (k, ln) ∈ raised ↔ 1 ≤ k ∧ k ≤ g.n ∧ passes k ln) →
          raised.Pairwise (fun a b => g.position t.ptr.angle b.1 < g.position t.ptr.angle a.1 ∨
            (a.1 = b.1 ∧ lineRank (some a.2) < lineRank (some b.2))) →
          updateWheel s = overrunCheck (clearLeavers (raised.foldl
            (fun u c => crossing c.1 c.2 (noteSlowCrossed c.1 c.2 (setPassRecord c.1 (some c.2) u))) reported))) ∧
      (s.ptr.referenced = false → t.ptr.referenced = true →
        updateWheel s = overrunCheck (clearLeavers (seedAll reported))) ∧
      (s.ptr.referenced = t.ptr.referenced → s.cfs.device = .config ∨ s.ptr.referenced = false ∨ d + correction ≤ 0 →
        updateWheel s = overrunCheck (clearLeavers reported)) ∧
      (j < d → s.ptr.referenced = true → updateWheel s = overrunCheck (clearLeavers reported)) ∧
      (let jumped := if j < d then report .encoderJump none settled else settled;
        let reversed := if d < -8 then report .reverseMotion none jumped else jumped;
        (s.ptr.referenced = true → ¬j < d → off → reported = report .indexMismatch none reversed) ∧
        (s.ptr.referenced = false ∨ j < d ∨ ¬off → reported = reversed)) ∧
      (let signed (x : Int) : Int :=
          if 2 * ((x % cpr).toNat : Int) < cpr then (x % cpr).toNat else ((x % cpr).toNat : Int) - cpr;
        let seeded := s.ptr.referenced = false ∧ t.ptr.referenced = true;
        settled.roc.limits = s.roc.limits.map fun e => { e with
          remaining := if seeded then signed ((e.line : Int) - t.ptr.angle)
            else e.remaining - signed ((t.ptr.angle : Int) - s.ptr.angle) })

/-- The measured speed is that of the last 20 deltas, and ten consecutive updates without movement make standstill. -/
def Obligations.ControlUpdateMeasuresSpeed : Prop :=
  ∀ s : State, s.time.resetHeld = false → s.ptr.history.length ≤ 20 →
    let d : Int := (s.ptr.counter - s.ptr.sample).toInt
    ∃ t, exec .controlUpdate s = .next t ∧
      (s.ptr.history.length < 20 → t.ptr.history = s.ptr.history ++ [d]) ∧
      (s.ptr.history.length = 20 → t.ptr.history = s.ptr.history.tail ++ [d]) ∧
      t.ptr.speed = t.ptr.history.sum * (s.cfs.geometry.u : Int) / 1000 ∧
      (d = 0 → t.ptr.zeroRun = min 10 (s.ptr.zeroRun + 1) ∧
        t.ptr.standstill = (s.ptr.standstill || decide (10 ≤ s.ptr.zeroRun + 1))) ∧
      (d ≠ 0 → t.ptr.zeroRun = 0 ∧ t.ptr.standstill = false)

/-- In RUNNING without a trial step the commanded speed moves toward the target by one bounded step, with its drive
reference (the word that the update leaves on the line is kept as its word: log 35), and at 0 and standstill the wheel
enters STANDING and every closing cabin whose curve limit is 0 enters DOOR_HOLD; under a trial step, with target 0 and
HELD reported, it waits for standstill. The update may trip the wheel instead: in a sound state, exactly at PARK, by
TRACKING_ERROR or by DECEL_INSUFFICIENT in a pending bank. w is the state in which the Rotation Controller takes its step,
after the overrun check (their order: log 9), which reports and marks each DOOR entry passed by more than O once. The
speed target is the least of its terms: cruise or 0, the level cap, board while UNREFERENCED, board with a DOOR entry in
the list, and each entry's curve limit; the limiting term is the first that has its value. -/
def Obligations.RunningUpdateRamps : Prop :=
  (∀ s : State, s.time.resetHeld = false →
    let w := updateWheel s
    let v := w.roc.vCmd
    let goal := (w.speedTarget v).1 * 1000
    w.roc.rotation = .running →
    ∃ t, exec .controlUpdate s = .next t ∧ (BlocksSound s → TripsAtPark w t) ∧ t.roc.updateRef = t.roc.driveRef ∧
      (w.roc.trialStep = false →
        t.roc.target = (w.reportedTarget v).1 ∧ t.roc.limiting = (w.reportedTarget v).2) ∧
      (w.roc.trialStep = true → t.roc.target = 0 ∧ t.roc.limiting = .held) ∧
      (t.roc.rotation = .tripped ∨
        (w.roc.trialStep = false →
          (v < goal → t.roc.vCmd = min goal (v + w.cfs.speeds.aAcc * 50)) ∧
          (goal ≤ v → t.roc.vCmd = max goal (v - w.roc.aEff * 50)) ∧ t.roc.driveRef = t.roc.vCmd * 65535 / 600000 ∧
          (t.roc.vCmd ≠ 0 ∨ w.ptr.standstill = false → t.roc.rotation = .running) ∧
          (t.roc.vCmd = 0 → w.ptr.standstill = true → t.roc.rotation = .standing ∧ t.roc.standTimer = some 0 ∧
            ∀ k, 1 ≤ k → k ≤ w.bsq.cabins.length → (w.cabin k).phase = .closing →
              (∃ e ∈ w.roc.limits, e.origin = .door k ∧ w.curveLimit v e = 0) →
              (t.cabin k).phase = .doorHold ∧ (t.cabin k).cleanPass = false)) ∧
        (w.roc.trialStep = true → t.roc.vCmd = v ∧ t.roc.driveRef = 0 ∧
          (w.ptr.standstill = true →
            t.roc.rotation = .standing ∧ t.roc.standTimer = some 0 ∧ t.roc.trialStep = false) ∧
          (w.ptr.standstill = false → t.roc.rotation = .running ∧ t.roc.trialStep = true)))) ∧
  (∀ (s : State) (v : Nat),
    let r := s.speedTarget v
    let run := if s.roc.runEnable then s.cfs.speeds.cruise else 0
    let cap :=
      match s.hlu.effective with
      | .none => s.cfs.speeds.cruise
      | .slow => s.cfs.speeds.capSlow
      | .noBoard => s.cfs.speeds.capNoBoard
      | .unloadOnly => s.cfs.speeds.capUnloadOnly
      | .stop | .park => 0
    let board := s.cfs.speeds.board
    let lost := s.ptr.referenced = false
    let out := ∃ e ∈ s.roc.limits, ∃ k, e.origin = .door k
    let arrived := ∃ m k, s.mvu.slotA = some m ∧ m.kind = .stopCabin k ∧ m.status = .arrived
    r.1 ≤ run ∧ r.1 ≤ cap ∧ (lost → r.1 ≤ board) ∧ (out → r.1 ≤ board) ∧ (∀ e ∈ s.roc.limits, r.1 ≤ s.curveLimit v e) ∧
    (r.1 = run ∨ r.1 = cap ∨ (lost ∧ r.1 = board) ∨ (out ∧ r.1 = board) ∨ ∃ e ∈ s.roc.limits, r.1 = s.curveLimit v e) ∧
    (r.1 = run → r.2 = .runOff) ∧ (r.1 ≠ run → r.1 = cap → r.2 = .level) ∧
    (r.1 ≠ run → r.1 ≠ cap → (lost → r.1 = board → r.2 = .unreferenced) ∧
      (¬lost → out → r.1 = board → r.2 = .platform) ∧
      (¬(lost ∧ r.1 = board) → ¬(out ∧ r.1 = board) → ∃ before e after, s.roc.limits = before ++ e :: after ∧
        r.1 = s.curveLimit v e ∧ (∀ x ∈ before, s.curveLimit v x ≠ r.1) ∧ r.2 = .curve e.origin)) ∧
    ∀ e : LimitPoint,
      let distance := e.remaining.toNat * s.cfs.geometry.u / 1000 - (v + 19999) / 20000
        - (if e.margin then s.cfs.speeds.margin else 0)
      let square := e.limitSpeed * e.limitSpeed + 2 * s.roc.aEff * distance
      (e.origin = .move → arrived → s.curveLimit v e = e.limitSpeed) ∧
      (e.origin ≠ .move ∨ ¬arrived → s.curveLimit v e * s.curveLimit v e ≤ square ∧
        square < (s.curveLimit v e + 1) * (s.curveLimit v e + 1))) ∧
  ∀ s : State, (s.roc.limits.map LimitPoint.origin).Nodup →
    (∀ e ∈ s.roc.limits, ∀ k, e.origin = .door k → e.overrunReported = false → e.remaining < -(s.cfs.zones.o : Int) →
      (overrunCheck s).limit (.door k) = some { e with overrunReported := true } ∧
      ((s.bank .rotation).mask.getLsbD 3 = false → ((overrunCheck s).bank .rotation).hold = some .park)) ∧
    ((∀ e ∈ s.roc.limits, ∀ k, e.origin = .door k → e.overrunReported = true ∨ -(s.cfs.zones.o : Int) ≤ e.remaining) →
      overrunCheck s = s)

/-- A braked wheel is released at an update when run-enable is set in SERVICE, the prospective target is above 0, the
brake is confirmed and DRIVE_READY is present; a BRAKE_RELEASED found present takes it to RUNNING at once, and
waiting-drive-ready is cleared at the release (read from R20: log 27). A releasing wheel waits. A standing wheel runs
again when its target is above 0. A tripped one takes no ramp step and reports target 0 and HELD. The word that an update
leaves on the drive reference line is kept as its word (log 35). The target, which RunningUpdateRamps states term by term,
is reported as 0 with HELD in CONFIG, in TRIPPED, during a trial step, and in BRAKED with the brake unconfirmed. The
update may trip the wheel instead: in a sound state, exactly at PARK. w is the state in which the Rotation Controller
takes its step, after the overrun check (their order: log 9). -/
def Obligations.RestingUpdateReleasesOrStays : Prop :=
  (∀ (s : State) (v : Nat),
    let held := s.cfs.device = .config ∨ s.roc.rotation = .tripped ∨ s.roc.trialStep = true ∨
      (s.roc.rotation = .braked ∧ s.roc.brakeConfirmed = false)
    (held → s.reportedTarget v = (0, .held)) ∧ (¬held → s.reportedTarget v = s.speedTarget v)) ∧
  ∀ s : State, s.time.resetHeld = false →
    let w := updateWheel s
    let goal := (w.speedTarget w.roc.vCmd).1
    let wanted := w.roc.runEnable = true ∧ w.cfs.device = .service ∧ 0 < (w.reportedTarget 0).1 ∧
      w.roc.brakeConfirmed = true
    ∃ t, exec .controlUpdate s = .next t ∧ (BlocksSound s → w.roc.rotation ≠ .tripped → TripsAtPark w t) ∧
      t.roc.updateRef = t.roc.driveRef ∧
      (w.roc.rotation = .braked ∨ w.roc.rotation = .releasing →
        t.roc.target = (w.reportedTarget 0).1 ∧ t.roc.limiting = (w.reportedTarget 0).2) ∧
      (w.roc.rotation = .standing →
        t.roc.target = (w.reportedTarget w.roc.vCmd).1 ∧ t.roc.limiting = (w.reportedTarget w.roc.vCmd).2) ∧
      (w.roc.rotation = .tripped → t.roc = { w.roc with
        target := 0, limiting := .held, driveRef := 0, updateRef := 0, tracking := 0, aEff := t.roc.aEff
        limits := t.roc.limits }) ∧
      (t.roc.rotation = .tripped ∨
        (w.roc.rotation = .releasing → t.roc.rotation = .releasing ∧ t.roc.releaseTimer = w.roc.releaseTimer ∧
          t.roc.vCmd = w.roc.vCmd ∧ t.roc.driveRef = 0) ∧
        (w.roc.rotation = .braked → wanted → w.roc.driveReady = true → w.roc.brakeReleased = false →
          t.roc.rotation = .releasing ∧ t.roc.releaseTimer = some 0 ∧ t.roc.brakeConfirmed = false ∧
          t.roc.waitingDriveReady = false) ∧
        (w.roc.rotation = .braked → wanted → w.roc.driveReady = true → w.roc.brakeReleased = true →
          t.roc.rotation = .running ∧ t.roc.releaseTimer = none ∧ t.roc.brakeConfirmed = false ∧ t.roc.grace = some 0) ∧
        (w.roc.rotation = .braked → wanted → w.roc.driveReady = false →
          t.roc.rotation = .braked ∧ t.roc.waitingDriveReady = true ∧ t.roc.driveRef = 0) ∧
        (w.roc.rotation = .braked → ¬wanted →
          t.roc.rotation = .braked ∧ t.roc.waitingDriveReady = false ∧ t.roc.driveRef = 0) ∧
        (w.roc.rotation = .standing → 0 < goal →
          t.roc.rotation = .running ∧ t.roc.standTimer = none ∧
          t.roc.vCmd = rampStep w.roc.vCmd goal w.cfs.speeds.aAcc w.roc.aEff) ∧
        (w.roc.rotation = .standing → goal = 0 →
          t.roc.rotation = .standing ∧ t.roc.standTimer = w.roc.standTimer ∧ t.roc.driveRef = 0))

/-- STANDSTILL and TRACKING_ERROR are the control update at which standstill is set, and the one at which the tracking
counter reaches 20; at any other moment they do nothing (this model's choice: log 5). The counter rises at each check that
finds the measured speed off the commanded one, and is 0 after any other update and after the report. An update at whose
start a trial step is in force makes no tracking check (read from R38: log 25). After the Rotation Controller's step come
the tracking check, the trial's part with the update's delta, and the move's judgement (log 9), and last the word on the
drive reference line is kept as the update's (log 35). -/
def Obligations.DerivedUpdateCommandsRunUpdate : Prop :=
  ∀ s : State, s.time.resetHeld = false →
    let w := updateWheel s
    let r := rotationStep w
    let checked := trackingCheck w.roc.trialStep r
    (exec .controlUpdate s = .next (keepWord (moveUpdate (trialUpdate (s.ptr.counter - s.ptr.sample).toInt checked)))) ∧
    (s.ptr.counter = s.ptr.sample → 9 ≤ s.ptr.zeroRun → s.ptr.standstill = false →
      ∃ t, exec .standstill s = .next t ∧ exec .controlUpdate s = .next t ∧ t.ptr.standstill = true) ∧
    (s.ptr.counter ≠ s.ptr.sample ∨ s.ptr.zeroRun < 9 ∨ s.ptr.standstill = true → exec .standstill s = .next s) ∧
    (tracksOff w r → 19 ≤ r.roc.tracking →
      checked = report .trackingError none { r with roc := { r.roc with tracking := 0 } } ∧
      exec .trackingError s = exec .controlUpdate s) ∧
    (tracksOff w r → r.roc.tracking < 19 →
      checked = { r with roc := { r.roc with tracking := r.roc.tracking + 1 } } ∧ exec .trackingError s = .next s) ∧
    (¬tracksOff w r → checked = { r with roc := { r.roc with tracking := 0 } } ∧ exec .trackingError s = .next s)

/-! ### Registers, lines and timers -/

/-- The encoder moves the counter at all times; a mark latches it; a pulse raises its channel's counter up to 65,535; the
service clock counts up to 4,294,967,295; the tracking grace ends. Nothing else changes. -/
def Obligations.CountersCount : Prop :=
  (∀ (n : Int) (s : State), exec (.encoderCount n) s =
    .next { s with ptr := { s.ptr with counter := s.ptr.counter + BitVec.ofInt 32 n } }) ∧
  ∀ s : State, s.time.resetHeld = false →
    exec .indexMark s = .next { s with ptr := { s.ptr with latch := some s.ptr.counter } } ∧
    exec .serviceClockTick s = .next { s with cfs := { s.cfs with
      clock := if s.cfs.clock < 4294967295 then s.cfs.clock + 1 else 4294967295 } } ∧
    exec .trackingGraceExpiry s = .next { s with roc := { s.roc with grace := none } } ∧
    ∀ ch, exec (.anemometerPulse ch) s = .next (setChannel ch { s.channel ch with
      pulses := if (s.channel ch).pulses < 65535 then (s.channel ch).pulses + 1 else 65535 } s)

/-- BRAKE_RELEASED takes a releasing wheel to RUNNING, BRAKE_SET confirms the brake, and DRIVE_READY changes its line
alone; an arrival that the wheel does not wait for changes the line alone. DRIVE_READY_CHANGE carries a change of each of
the three lines, and an arrival row is an arrival whatever the pin was (this model's choice: log 32). -/
def Obligations.FeedbackLinesAct : Prop :=
  ∀ s : State, s.time.resetHeld = false →
    (s.roc.rotation = .releasing → s.roc.releaseTimer.isSome = true →
      exec .brakeReleasedArrival s = .next { s with roc := { s.roc with
        brakeReleased := true, releaseTimer := none, rotation := .running, grace := some 0 } }) ∧
    (s.roc.rotation ≠ .releasing ∨ s.roc.releaseTimer = none →
      exec .brakeReleasedArrival s = .next { s with roc := { s.roc with brakeReleased := true } }) ∧
    (s.roc.brakeSetTimer.isSome = true →
      exec .brakeSetArrival s = .next { s with roc := { s.roc with
        brakeSet := true, brakeSetTimer := none, brakeConfirmed := true } }) ∧
    (s.roc.brakeSetTimer = none → s.roc.rotation = .braked ∨ s.roc.rotation = .tripped →
      exec .brakeSetArrival s = .next { s with roc := { s.roc with brakeSet := true, brakeConfirmed := true } }) ∧
    (s.roc.brakeSetTimer = none → s.roc.rotation ≠ .braked → s.roc.rotation ≠ .tripped →
      exec .brakeSetArrival s = .next { s with roc := { s.roc with brakeSet := true } }) ∧
    (∀ b, exec (.driveReadyChange .driveReady b) s = .next { s with roc := { s.roc with driveReady := b } }) ∧
    exec (.driveReadyChange .brakeReleased false) s = .next { s with roc := { s.roc with brakeReleased := false } } ∧
    exec (.driveReadyChange .brakeSet false) s = .next { s with roc := { s.roc with brakeSet := false } } ∧
    (s.roc.brakeReleased = false → exec (.driveReadyChange .brakeReleased true) s = exec .brakeReleasedArrival s) ∧
    (s.roc.brakeSet = false → exec (.driveReadyChange .brakeSet true) s = exec .brakeSetArrival s)

/-- The release timer brakes the wheel and reports BRAKE_RELEASE_TIMEOUT, the stand timer brakes it, and the brake-set
timer reports BRAKE_SET_TIMEOUT; a BRAKE_SET found present when the wheel is braked confirms the brake, with no timer. An
expiry of a timer that does not run does nothing (this model's choice: log 4). -/
def Obligations.RotationTimersExpire : Prop :=
  ∀ s : State, s.time.resetHeld = false →
    let braked : State := { s with roc := { s.roc with
      rotation := .braked, releaseTimer := none, standTimer := none, vCmd := 0, driveRef := 0, tracking := 0,
      brakeConfirmed := s.roc.brakeSet, brakeSetTimer := if s.roc.brakeSet then none else some 0 } }
    (s.roc.releaseTimer.isSome = true → s.roc.rotation = .releasing →
      exec .brakeReleaseTimeout s = .next (report .brakeReleaseTimeout none braked)) ∧
    (s.roc.releaseTimer = none → exec .brakeReleaseTimeout s = .next s) ∧
    (s.roc.standTimer.isSome = true → s.roc.rotation = .standing → exec .standTimerExpiry s = .next braked) ∧
    (s.roc.standTimer = none → exec .standTimerExpiry s = .next s) ∧
    (s.roc.brakeSetTimer.isSome = true → exec .brakeSetTimeout s =
      .next (report .brakeSetTimeout none { s with roc := { s.roc with brakeSetTimer := none } })) ∧
    (s.roc.brakeSetTimer = none → exec .brakeSetTimeout s = .next s)

/-- A report, whatever raises it. A masked SIGNAL code changes nothing. Any other counts toward the threshold unless it is
uncorrectable (at a full counter too: log 46), is written over an empty record or one of a lower class, and sets the
overflow flag at a record that was there; a code with an action holds a bank not pending at that action and takes a
pending one to PARK, its FAULT entry with it; a CABIN code makes its cabin SUSPECT, or OUT_OF_SERVICE at the K-th fault
(log 14). A SIGNAL code's whole effect is its bank and its notices. -/
def Obligations.ReportFillsBankAndHoldsRide : Prop :=
  ∀ (c : FaultCode) (subject : Option Nat) (s : State),
    let b := s.bank c.bank
    let t := report c subject s
    let d := t.bank c.bank
    let record : FaultRecord :=
      { code := c, subject := subject, angle := s.ptr.angle, time := s.cfs.clock, beforeRestart := false }
    (c.scope = .signal → b.mask.getLsbD (c.number - 1) = true → t = s) ∧
    (b.mask.getLsbD (c.number - 1) = false →
      (c.cls = .uncorrectable → d.counter = b.counter ∧ d.thresholdReached = b.thresholdReached) ∧
      (c.cls ≠ .uncorrectable → d.counter = min 4095 (b.counter + 1) ∧
        d.thresholdReached = (b.thresholdReached || decide (b.threshold ≠ 0 ∧ b.threshold ≤ min 4095 (b.counter + 1)))) ∧
      (b.record = none → d.record = some record ∧ d.overflow = b.overflow) ∧
      (∀ r, b.record = some r → r.code.cls.code < c.cls.code → d.record = some record ∧ d.overflow = true) ∧
      (∀ r, b.record = some r → c.cls.code ≤ r.code.cls.code → d.record = some r ∧ d.overflow = true) ∧
      d.mask = b.mask ∧ d.threshold = b.threshold ∧ d.noticeCorrectable = b.noticeCorrectable ∧
      d.noticeDeferred = b.noticeDeferred ∧ (∀ x, x ≠ c.bank → t.bank x = s.bank x) ∧
      (c.action = none → d.hold = b.hold ∧ t.hlu = s.hlu) ∧
      (∀ a, c.action = some a →
        (b.hold = none → d.hold = some a ∧
          t.hold (.fault c.bank) = some { id := .fault c.bank, level := a.level, time := s.cfs.clock }) ∧
        (b.hold = some .stop → d.hold = some .park ∧
          t.hold (.fault c.bank) = some { id := .fault c.bank, level := .park, time := s.cfs.clock }) ∧
        (b.hold = some .park → d.hold = some .park ∧ t.hlu = s.hlu) ∧
        t.bsq.cabins = s.bsq.cabins) ∧
      (c.scope = .cabin → ∀ k, subject = some k → 1 ≤ k → k ≤ s.bsq.cabins.length →
        let n := min 15 ((s.cabin k).suspectCount + 1)
        t.cabin k = { s.cabin k with
          cleanPass := false, suspectCount := n
          service := if (s.cabin k).service = .outOfService ∨ s.cfs.boarding.k ≤ n then .outOfService else .suspect } ∧
        ∀ x, x ≠ k → t.cabin x = s.cabin x) ∧
      (c.scope = .signal →
        let disposition : Disposition :=
          match b.record with
          | none => .written
          | some r => if r.code.cls.code < c.cls.code then .replaced else .notWritten
        let logged :=
          if (c.cls = .deferred ∧ b.noticeDeferred = true) ∨ (c.cls = .correctable ∧ b.noticeCorrectable = true) then
            notify (.faultLogged c subject s.ptr.angle s.cfs.clock disposition d.counter d.overflow d.hold) (setBank c.bank d s)
          else setBank c.bank d s
        t = if b.thresholdReached = false ∧ d.thresholdReached = true then
              notify (.threshold c.bank d.counter d.threshold c subject s.cfs.clock) logged
            else logged) ∧
      t.ptr = s.ptr ∧ t.wmn = s.wmn ∧ t.pim = s.pim ∧ t.cfs = s.cfs ∧ t.time = s.time)

/-! ### The ring -/

/-- The reply wait begins when the request has been sent; the first try's timeout sends the request again at once, and the
retry's makes the node SILENT and the pass not clean (in every phase: log 40), and reports a new silence by the cabin's
phase. Without a wait a timeout does nothing (this model's choice: log 4). When a transaction has ended the next begins:
in a WINDOW slot with the first member of the window list after the window pointer (from the first one while there is
none: log 36), in a ROUND slot or with an empty window list with the cabin after the round pointer; it carries the cabin's
pending command, marked as taken, or POLL. In CONFIG the ring stops instead. -/
def Obligations.RingTriesAndFails : Prop :=
  (∀ u : State,
    (u.cfs.device = .config → endTransaction u = { u with cru := { u.cru with running := false } }) ∧
    (u.cfs.device = .service →
      let member (k : Nat) : Prop := 1 ≤ k ∧ k ≤ u.cfs.geometry.n ∧
        ((u.cabin k).phase ≠ .away ∨ (u.node k).pending.isSome = true ∨ u.hasDoor k = true)
      let last := u.cru.windowPointer.getD 0
      let command (k : Nat) : RingCommand :=
        match (u.node k).pending with
        | none => .poll
        | some c => .door c
      let begun (k : Nat) : Transaction :=
        { cabin := k, command := command k, retry := false, carried := (u.node k).pending.isSome, wait := none }
      let marked (k : Nat) : State :=
        if (u.node k).pending.isSome then setNode k { u.node k with taken := true } u else u
      (∀ k, u.cru.nextSlot = .window → member k →
        (last < k ∧ ∀ j, member j → last < j → k ≤ j) ∨ ((∀ j, member j → j ≤ last) ∧ ∀ j, member j → k ≤ j) →
        endTransaction u = { marked k with cru := { (marked k).cru with
          flight := some (begun k), windowPointer := some k, nextSlot := .round } }) ∧
      (u.cru.nextSlot = .round ∨ (∀ k, ¬member k) →
        let k := if u.cfs.geometry.n ≤ u.cru.roundPointer then 1 else u.cru.roundPointer + 1
        endTransaction u = { marked k with cru := { (marked k).cru with
          flight := some (begun k), roundPointer := k, nextSlot := .window } }))) ∧
  ∀ s : State, s.time.resetHeld = false →
    (s.cru.flight = none → exec .ringRequestSent s = .next s ∧ exec .nodeTimeout s = .next s) ∧
    ∀ t : Transaction, s.cru.flight = some t →
      let ph := (s.cabin t.cabin).phase
      (t.wait = none → exec .ringRequestSent s =
        .next { s with cru := { s.cru with flight := some { t with wait := some 0 } } } ∧ exec .nodeTimeout s = .next s) ∧
      (t.wait.isSome = true → t.retry = false → exec .nodeTimeout s =
        .next { s with cru := { s.cru with flight := some { t with retry := true, wait := none } } }) ∧
      (t.wait.isSome = true → t.retry = true → 1 ≤ t.cabin → t.cabin ≤ s.cru.nodes.length →
        t.cabin ≤ s.bsq.cabins.length → ∃ u, exec .nodeTimeout s = .next u ∧ (u.node t.cabin).state = .silent ∧
          (u.node t.cabin).door = (s.node t.cabin).door ∧ (u.cabin t.cabin).cleanPass = false ∧
          ((s.node t.cabin).state = .silent → u.fbu = s.fbu) ∧
          ((s.node t.cabin).state ≠ .silent → ph = .away ∨ ph = .arriving ∨ ph = .passing →
            u.fbu = (report .nodeSilentAway (some t.cabin) s).fbu) ∧
          ((s.node t.cabin).state ≠ .silent → ph ≠ .away → ph ≠ .arriving → ph ≠ .passing →
            u.fbu = (report .nodeSilentPlatform (some t.cabin) s).fbu) ∧
          (∃ v, u = endTransaction v ∧ v.cfs = s.cfs ∧
            v.cru = { s.cru with nodes := v.cru.nodes, flight := none }) ∧
          u.ptr = s.ptr ∧ u.wmn = s.wmn ∧ u.pim = s.pim ∧ u.cfs = s.cfs ∧ u.time = s.time)

/-- A reply whose length, CRC-8, address, echo and door code are right makes the node ANSWERING and gives it the reply's
door, load, call and self-check. A reply in which one of them is wrong is taken as a timeout: the first try is sent again
at once (a list of another length than seven bytes stands for an incomplete reply: log 29). A good reply is taken in this
order: the carried command that is still pending is settled, the node record filled, NODE_RETRY_OK, LOAD_OVER_RANGE,
DOOR_OPEN_AWAY and NODE_SELF_CHECK reported where each is due, CABIN_CALL sent; then the Boarding Sequencer takes the
pass's cleanness (log 40), close and lock, the sums of a changed load with SLOW and bring-home after them, and the
evaluation of a loading cabin (log 41); and the next transaction begins, as RingTriesAndFails states. -/
def Obligations.GoodReplyFillsNode : Prop :=
  ∀ (s : State) (t : Transaction), s.time.resetHeld = false → s.cru.flight = some t → t.wait.isSome = true →
    1 ≤ t.cabin → t.cabin ≤ s.cru.nodes.length → t.cabin < 256 →
    (∀ (door high low flags : Byte) (d : Door), Door.ofCode door.toNat = some d →
      let body : List Byte := [BitVec.ofNat 8 t.cabin, BitVec.ofNat 8 t.command.code, door, high, low, flags]
      ∃ u, exec (.ringReplyReceived (body ++ [crc8 body])) s = .next u ∧
        (u.node t.cabin).state = .answering ∧ (u.node t.cabin).door = d ∧
        (u.node t.cabin).load = min 4000 (256 * high.toNat + low.toNat) ∧
        (u.node t.cabin).call = flags.getLsbD 0 ∧ (u.node t.cabin).selfCheck = flags.getLsbD 1 ∧
        (u.node t.cabin).lastAnswer = some s.cfs.clock ∧
        (∃ v, u = endTransaction v ∧ v.cfs = s.cfs ∧
          v.cru = { s.cru with nodes := v.cru.nodes, flight := none }) ∧
        u.ptr = s.ptr ∧ u.wmn = s.wmn ∧ u.pim = s.pim ∧ u.cfs = s.cfs ∧ u.time = s.time ∧
        (let k := t.cabin;
          let n := s.node k;
          let load := 256 * high.toNat + low.toNat;
          let settled := t.carried = true ∧ n.taken = true;
          let stored := setNode k
            { state := .answering, door := d, load := min 4000 load, call := flags.getLsbD 0, selfCheck := flags.getLsbD 1,
              pending := if settled then none else n.pending, taken := if settled then false else n.taken,
              awayReported := n.awayReported, lastAnswer := some s.cfs.clock }
            { s with cru := { s.cru with flight := none } };
          let retried := if t.retry = true then report .nodeRetryOk (some k) stored else stored;
          let clamped := if 4000 < load then report .loadOverRange (some k) retried else retried;
          let away :=
            if d = .opened ∨ d = .moving then
              if (s.cabin k).phase = .away ∧ n.awayReported = false then
                report .doorOpenAway (some k) (setNode k { clamped.node k with awayReported := true } clamped)
              else clamped
            else setNode k { clamped.node k with awayReported := false } clamped;
          let checked :=
            if flags.getLsbD 1 = true ∧ n.selfCheck = false then report .nodeSelfCheck (some k) away else away;
          let called :=
            if flags.getLsbD 0 = true ∧ n.call = false then
              notify (.cabinCall k d load (s.cabin k).phase s.cfs.clock) checked
            else checked;
          let judged :=
            if t.retry = true ∨ d = .doorFault then setCabin k { called.cabin k with cleanPass := false } called else called;
          let closed := closeProgress k t.command d judged;
          let summed := if min 4000 load = n.load then closed else settleCabins s (formSums closed);
          u = endTransaction (if (summed.cabin k).phase = .loading then evaluate k summed else summed))) ∧
    ∀ bytes : List Byte,
      (bytes.length ≠ 7 ∨ ∃ address echo door high low flags check : Byte,
        bytes = [address, echo, door, high, low, flags, check] ∧
        (check ≠ crc8 [address, echo, door, high, low, flags] ∨ address.toNat ≠ t.cabin ∨ echo.toNat ≠ t.command.code ∨
          door.toNat = 0 ∨ 5 < door.toNat)) →
      exec (.ringReplyReceived bytes) s = exec .nodeTimeout s ∧
      (t.retry = false → exec (.ringReplyReceived bytes) s =
        .next { s with cru := { s.cru with flight := some { t with retry := true, wait := none } } })

/-! ### The pass of a cabin -/

/-- The platform lines take a cabin through its pass: A begins it (and sets the pass fields afresh in any phase), D
releases the door when all six conditions of the release hold and makes the cabin PASSING with the first that fails
otherwise, L opens the admission window, C closes the cabin, X departs it or makes its departure due while its door is
out, and a line that the table has nothing for in the cabin's phase does nothing. X clears the clean-pass marker of a
cabin still ARRIVING (this model's reading: log 51). A lock report sets the lock time, the first of the pass, which finds
the DOOR entry (log 12), removes that entry and departs a cabin that is due; a departure requalifies a SUSPECT cabin after
a clean pass. -/
def Obligations.CrossingsTakeCabinThrough : Prop :=
  ∀ (k : Nat) (s : State), 1 ≤ k → k ≤ s.bsq.cabins.length → k ≤ s.cru.nodes.length →
    let c := s.cabin k
    let ph := c.phase
    let line := s.cfs.geometry.lineAngle k s.cfs.zones.x
    let locked : Option Nat := if s.bsq.gate = some k then none else s.bsq.gate
    let released := (c.service ≠ .outOfService ∨ s.occupied k = true) ∧ (s.node k).state ≠ .silent ∧
      s.hlu.effective ≠ .park ∧ s.ptr.speed ≤ (s.cfs.speeds.board : Int) + 10 ∧
      s.cfs.geometry.position s.ptr.angle k < s.cfs.zones.x ∧ (s.hasDoor k = true ∨ s.doorCount < 4)
    ((crossing k .a s).cabin k = { c with
        phase := if ph = .away then .arriving else ph, releaseTime := none, lockTime := none, cleanPass := true,
        closeAnswered := false, admittedThisPass := false, departureDue := false } ∧
      ∀ j, j ≠ k → (crossing k .a s).cabin j = s.cabin j) ∧
    (ph = .arriving → released →
      ((crossing k .d s).cabin k).phase = .unloading ∧ ((crossing k .d s).cabin k).releaseTime = some s.cfs.clock ∧
      ((crossing k .d s).node k).pending = some .release ∧
      (crossing k .d s).limit (.door k) = some { origin := .door k, line := line, limitSpeed := 0, margin := true,
                                                 remaining := (s.ahead line : Int), overrunReported := false }) ∧
    (ph = .arriving → ¬released →
      let first : SubCause :=
        if c.service = .outOfService ∧ s.occupied k = false then .notInService
        else if (s.node k).state = .silent then .nodeSilent
        else if s.hlu.effective = .park then .level
        else if (s.cfs.speeds.board : Int) + 10 < s.ptr.speed then .speed
        else if s.cfs.zones.x ≤ s.cfs.geometry.position s.ptr.angle k then .position
        else .pointListFull
      (crossing k .d s).cabin k = { c with phase := .passing, cleanPass := false, lastPass := some (.notReleased first) } ∧
      (crossing k .d s).fbu = (if first = .speed then report .speedOverBoard (some k) s else s).fbu) ∧
    (ph = .arriving → s.mvu.trial.status = .measuring → (crossing k .d s).mvu.trial = { s.mvu.trial with
      status := .aborted, abortCause := some .doorRelease, aEffAfter := some s.roc.aEff, endTime := some s.cfs.clock }) ∧
    (ph = .unloading → ((crossing k .l s).cabin k).phase = .loading ∧
      ∃ u, crossing k .l s = evaluate k u ∧ (u.cabin k).phase = .loading ∧ (u.cabin k).manifest = none ∧
        u.bsq.queue = s.bsq.queue) ∧
    (ph = .loading → ((crossing k .c s).cabin k).phase = .closing ∧ ((crossing k .c s).node k).pending = some .close ∧
      (crossing k .c s).bsq.gate = locked ∧ ((crossing k .c s).cabin k).manifest = c.manifest ∧
      (c.admittedThisPass = true → ((crossing k .c s).cabin k).lastPass = c.lastPass)) ∧
    (ph = .unloading → ((crossing k .c s).cabin k).phase = .closing ∧ ((crossing k .c s).node k).pending = some .close ∧
      (crossing k .c s).bsq.gate = locked ∧ ((crossing k .c s).cabin k).manifest = none) ∧
    (ph = .closing ∨ ph = .doorHold ∨ ph = .passing →
      (s.hasDoor k = true → crossing k .x s = setCabin k { c with departureDue := true } s) ∧
      (s.hasDoor k = false → crossing k .x s = depart k s)) ∧
    (ph = .unloading ∨ ph = .loading → ((crossing k .x s).node k).pending = some .close ∧
      ((crossing k .x s).cabin k).phase = (if s.hasDoor k then .closing else .away) ∧
      ((crossing k .x s).cabin k).departureDue = s.hasDoor k ∧ (crossing k .x s).bsq.gate = locked) ∧
    (ph = .arriving → ((crossing k .x s).cabin k).lastPass = some (.notReleased .position) ∧
      ((crossing k .x s).cabin k).phase = (if s.hasDoor k then .passing else .away) ∧
      ((crossing k .x s).cabin k).cleanPass = false) ∧
    ((depart k s).cabin k = { c with
        phase := .away, departureDue := false
        service := if c.service = .suspect ∧ c.cleanPass = true ∧ c.lockTime.isSome = true then .inService else c.service } ∧
      (depart k s).bsq.gate = locked) ∧
    (∀ (command : RingCommand) (door : Door), ph = .closing ∨ ph = .doorHold →
      (door = .locked → c.closeAnswered = true ∨ command = .door .close →
        (closeProgress k command door s).hasDoor k = false ∧
        ((closeProgress k command door s).cabin k).lockTime =
          (if s.hasDoor k = true ∨ c.lockTime = none then some s.cfs.clock else c.lockTime) ∧
        ((closeProgress k command door s).cabin k).phase = (if c.departureDue then .away else .closing)) ∧
      (door ≠ .locked ∨ (c.closeAnswered = false ∧ command ≠ .door .close) → closeProgress k command door s =
        setCabin k { c with closeAnswered := c.closeAnswered || decide (command = .door .close) } s)) ∧
    ∀ ln, ln ≠ .a → (ln, ph) ∉ [(PlatformLine.d, Phase.arriving), (.l, .unloading), (.c, .loading), (.c, .unloading),
        (.x, .closing), (.x, .doorHold), (.x, .passing), (.x, .unloading), (.x, .loading), (.x, .arriving)] →
      crossing k ln s = s

/-- An evaluation admits the head of the queue exactly when every condition of the admission holds, the balance check
among them: the head leaves the queue for the cabin's manifest and the gate is unlocked for the cabin. Otherwise queue,
gate and manifests stay. The sums are those of the stored loads, and the balance entry comes above B_warn and goes at
B_clear. -/
def Obligations.EvaluationAdmitsHead : Prop :=
  (∀ (k : Nat) (g : Group) (rest : List Group) (s : State), 1 ≤ k → k ≤ s.bsq.cabins.length →
    s.bsq.queue = g :: rest →
    let mass := s.partyMass g
    let x := s.bsq.sumX + (mass : Int) * (s.anglesOf k).1
    let y := s.bsq.sumY + (mass : Int) * (s.anglesOf k).2
    let lim : Int := (s.cfs.balance.lim * 4096 * (s.cfs.balance.lim * 4096) : Nat)
    let allowed := (s.cabin k).admittedThisPass = false ∧ (s.hlu.effective = .none ∨ s.hlu.effective = .slow) ∧
      s.ptr.referenced = true ∧ (s.cabin k).service = .inService ∧ (s.node k).state = .answering ∧
      (s.node k).door = .opened ∧
      (g.accessible = true →
        ∃ m, s.mvu.slotA = some m ∧ m.kind = .stopCabin k ∧ m.status = .arrived) ∧
      g.size ≤ s.cfs.boarding.capacity ∧ (s.node k).load + mass ≤ s.cfs.boarding.maxLoad ∧
      (x * x + y * y ≤ lim ∨ x * x + y * y ≤ s.bsq.sumQ)
    (allowed → (evaluate k s).bsq.queue = rest ∧ (evaluate k s).bsq.gate = some k ∧
      ((evaluate k s).cabin k).manifest = some { id := g.id, size := g.size, mass := mass, accessible := g.accessible,
                                                 admitted := s.cfs.clock } ∧
      ((evaluate k s).cabin k).admittedThisPass = true ∧ ((evaluate k s).cabin k).lastPass = some .admitted) ∧
    (¬allowed → (evaluate k s).bsq.queue = s.bsq.queue ∧ (evaluate k s).bsq.gate = s.bsq.gate ∧
      (evaluate k s).bsq.cabins = s.bsq.cabins)) ∧
  ∀ s : State,
    let t := formSums s
    let warn : Int := (s.cfs.balance.warn * 4096 * (s.cfs.balance.warn * 4096) : Nat)
    let clear : Int := (s.cfs.balance.clear * 4096 * (s.cfs.balance.clear * 4096) : Nat)
    t.bsq.sumX = (s.cfs.geometry.cabins.map fun k => ((s.node k).load : Int) * (s.anglesOf k).1).sum ∧
    t.bsq.sumY = (s.cfs.geometry.cabins.map fun k => ((s.node k).load : Int) * (s.anglesOf k).2).sum ∧
    t.bsq.sumQ = t.bsq.sumX * t.bsq.sumX + t.bsq.sumY * t.bsq.sumY ∧
    ((s.hold .balance).isSome = true → t.hold .balance = if t.bsq.sumQ ≤ clear then none else s.hold .balance) ∧
    (s.hold .balance = none → t.hold .balance =
      if warn < t.bsq.sumQ then some { id := .balance, level := .slow, time := s.cfs.clock } else none)

/-! ### The wind -/

/-- A sample event forms each enabled channel's sample, gust and, at every fourth sample, mean, and takes every channel's
pulses; it leaves the wheel's position and the configuration alone. -/
def Obligations.WindSampleFormsGustAndMean : Prop :=
  ∀ s : State, s.time.resetHeld = false → ∃ t, exec .windSample s = .next t ∧ t.ptr = s.ptr ∧ t.cfs = s.cfs ∧
    t.pim = s.pim ∧ t.time = s.time ∧
    ∀ ch : Channel,
      let c := s.channel ch
      let v := min 800 (c.pulses * c.kc / 256)
      let d := t.channel ch
      let newest := (d.ring.drop (d.ring.length - 4)).sum / 4
      d.pulses = 0 ∧ d.enable = c.enable ∧ d.kc = c.kc ∧
      (c.enable = false → d.ring = c.ring ∧ d.gust = c.gust ∧ d.mean = c.mean) ∧
      (c.enable = true →
        (c.ring.length < 12 → d.ring = c.ring ++ [v]) ∧ (c.ring.length = 12 → d.ring = c.ring.tail ++ [v]) ∧
        d.gust = d.ring.sum / 12 ∧ d.clamped = decide (800 < c.pulses * c.kc / 256) ∧
        (c.sampleCount ≠ 3 → d.sampleCount = c.sampleCount + 1 ∧ d.mean = c.mean ∧ d.meanQ = c.meanQ) ∧
        (c.sampleCount = 3 → d.sampleCount = 0 ∧ d.initialised = true ∧ d.mean = d.meanQ / 256 ∧
          (c.initialised = false → d.meanQ = newest * 256) ∧
          (c.initialised = true →
            d.meanQ = ((c.meanQ : Int) + ((newest * 256 : Nat) - (c.meanQ : Int)) / 512).toNat)))

/-- The wind level after a sample: one down at the end of a full calm period at which no rise is due and the level stands
above the floor (during the warm-up as well: log 45); otherwise the greatest of the old level, the level that the
governing gust and mean warrant, and the floor. Under a profile whose exits do not exceed its entries it is then at least
the warranted level. The calm timer counts the samples below the exits; a changed level has its own hold entry, none at
CALM. -/
def Obligations.WindLevelFollowsSample : Prop :=
  ∀ s : State, s.time.resetHeld = false → ∃ t, exec .windSample s = .next t ∧
    let w := s.wmn
    let v := t.wmn
    let warranted := w.profileInForce.warranted v.gust v.mean
    let floor : Nat := if v.channels.validCount = 0 ∨ w.warmUp < 240 then 2 else if v.channels.validCount = 1 then 1 else 0
    let exits := w.profileInForce.thresholds w.level
    let below := v.gust < exits.exitGust ∧ v.mean < exits.exitMean
    let expires := w.level ≠ .calm ∧ warranted.code ≤ w.level.code ∧ below ∧ 4 * w.profileInForce.calmPeriod ≤ w.calm + 1
    v.gust = v.channels.governingGust ∧ v.mean = v.channels.governingMean ∧ v.warranted = warranted ∧
    v.floorLevel.code = floor ∧
    (expires → floor < w.level.code → v.level.code + 1 = w.level.code) ∧
    (¬(expires ∧ floor < w.level.code) → v.level.code = max (max w.level.code warranted.code) floor) ∧
    (exits.exitGust ≤ exits.enterGust → exits.exitMean ≤ exits.enterMean → warranted.code ≤ v.level.code) ∧
    (v.level ≠ w.level ∨ expires → v.calm = 0 ∧ v.calmRuns = decide (v.level ≠ .calm)) ∧
    (v.level = w.level → ¬expires → v.calmRuns = w.calmRuns ∧ (w.level = .calm → v.calm = w.calm) ∧
      (w.level ≠ .calm → below → v.calm = w.calm + 1) ∧ (w.level ≠ .calm → ¬below → v.calm = 0)) ∧
    (v.level = w.level → t.hlu = s.hlu) ∧
    (v.level ≠ w.level → v.level = .calm → t.hold .wind = none) ∧
    (v.level ≠ w.level → v.level ≠ .calm →
      t.hold .wind = some { id := .wind, level := v.level.hold, time := s.cfs.clock }) ∧
    (∀ i, i ≠ .wind → i ≠ .boarding → t.hold i = s.hold i) ∧
    v.operative = w.operative ∧ v.profile0 = w.profile0 ∧ v.profile1 = w.profile1 ∧ v.warmUp = min 240 (w.warmUp + 1)

/-- The named wind events are the sample at which they happen: a VALID channel whose 240th sample in a row is 0 while
another VALID channel has a gust of 80 or more becomes IMPLAUSIBLE, an IMPLAUSIBLE one whose 240th sample in a row is not
0 becomes VALID, the warm-up ends, the calm period expires; at any other sample the command does nothing (this model's
choice: log 5). The runs count these samples and start again from 0. -/
def Obligations.NamedWindEventsAreSamples : Prop :=
  ∀ s : State, s.time.resetHeld = false → ∃ t, exec .windSample s = .next t ∧
    (∀ ch : Channel,
      let c := s.channel ch
      let d := t.channel ch
      let still := c.pulses * c.kc / 256 = 0
      let windy := ∃ o, o ≠ ch ∧ (s.channel o).validity = .valid ∧ 80 ≤ (t.channel o).gust
      (c.enable = true → c.validity = .valid →
        (still → windy → d.zeroRun = min 240 (c.zeroRun + 1) ∧
          (239 ≤ c.zeroRun →
            d.validity = .implausible ∧ d.recoveryRun = 0 ∧ exec (.channelImplausible ch) s = .next t) ∧
          (c.zeroRun < 239 → d.validity = .valid ∧ exec (.channelImplausible ch) s = .next s)) ∧
        (¬(still ∧ windy) → d.zeroRun = 0 ∧ d.validity = .valid ∧ exec (.channelImplausible ch) s = .next s)) ∧
      (c.enable = true → c.validity = .implausible →
        (¬still → d.recoveryRun = min 240 (c.recoveryRun + 1) ∧
          (239 ≤ c.recoveryRun → d.validity = .valid ∧ d.zeroRun = 0 ∧ exec (.channelRecovery ch) s = .next t) ∧
          (c.recoveryRun < 239 → d.validity = .implausible ∧ exec (.channelRecovery ch) s = .next s)) ∧
        (still → d.recoveryRun = 0 ∧ d.validity = .implausible ∧ exec (.channelRecovery ch) s = .next s)) ∧
      (c.enable = false ∨ c.validity ≠ .valid → exec (.channelImplausible ch) s = .next s) ∧
      (c.enable = false ∨ c.validity ≠ .implausible → exec (.channelRecovery ch) s = .next s)) ∧
    (s.wmn.warmUp = 239 → exec .warmUpEnd s = .next t ∧ t.wmn.warmUp = 240) ∧
    (s.wmn.warmUp ≠ 239 → exec .warmUpEnd s = .next s) ∧
    let p := s.wmn.profileInForce
    let exits := p.thresholds s.wmn.level
    let expires := s.wmn.level ≠ .calm ∧ (p.warranted t.wmn.gust t.wmn.mean).code ≤ s.wmn.level.code ∧
      t.wmn.gust < exits.exitGust ∧ t.wmn.mean < exits.exitMean ∧ 4 * p.calmPeriod ≤ s.wmn.calm + 1
    (expires → exec .calmPeriodExpiry s = .next t ∧ t.wmn.calm = 0) ∧
    (¬expires → exec .calmPeriodExpiry s = .next s)

/-! ### The platform inputs -/

/-- A raw change starts the input's filter timer afresh, or stops it when the filtered value is reached again. The input
change at its expiry takes the raw value, forms the group's match state, sets the factor flag at a passage from MATCH to
MISMATCH, and leaves the group's INPUTS entry present exactly while its level is other than NONE and the group is in
MISMATCH or its flag set. With the filter stopped the command does nothing (this model's choice: log 4). -/
def Obligations.InputFiltersFormGroup : Prop :=
  ∀ (i : Fin 16) (s : State), s.time.resetHeld = false → s.pim.inputs.length = 16 →
    let x := s.input i.val
    let g := groupOfInput i.val
    (exec (.inputRawChange i x.raw) s = .next s) ∧
    (∀ value, x.raw ≠ value → exec (.inputRawChange i value) s = .next
      (setInput i.val { x with raw := value, timer := if value = x.filtered then none else some 0 } s)) ∧
    (x.timer = none → exec (.inputChange i) s = .next s) ∧
    (x.timer.isSome = true → ∃ t, exec (.inputChange i) s = .next t ∧
      t.input i.val = { raw := x.raw, filtered := x.raw, timer := none } ∧
      (∀ j, j ≠ i.val → t.input j = s.input j) ∧
      (t.group g).isMatch = decide ((t.filteredMask g ^^^ (s.group g).expected) &&& (s.group g).select = 0) ∧
      (t.group g).factor = ((s.group g).factor || ((s.group g).isMatch && !(t.group g).isMatch)) ∧
      (t.group g).level = (s.group g).level ∧ (∀ x, x ≠ g → t.group x = s.group x) ∧
      ((t.hold (.inputs g)).isSome = true ↔
        (t.group g).level ≠ .none ∧ ((t.group g).isMatch = false ∨ (t.group g).factor = true)) ∧
      t.ptr = s.ptr ∧ t.wmn = s.wmn ∧ t.cfs = s.cfs)

/-! ### The link ports -/

/-- A presence timer that reaches its time stops, places the port's LINK entry at the presence level and then (log 11)
reports PRESENCE_LOST for the port, which counts toward the threshold of the LINK bank (at a full counter too: log 46) and
is logged there unless it is masked; a timer that does not run does nothing (this model's choice: log 4). When a valid
frame came together with the expiry and was taken first, the expiry inserts and reports nothing (R152); the flag by which
the port tells this is the model's own (this model's choice: log 49). -/
def Obligations.PresenceExpiryHoldsRide : Prop :=
  ∀ (p : Port) (s : State), s.time.resetHeld = false →
    ((s.port p).presence = none ∨ (s.port p).lateExpiry = true → exec (.presenceTimerExpiry p) s = .next s) ∧
    (∀ (f : Frame) (x : PresenceTimer), (s.port p).fifo.length < 2 → s.cfs.device = .service →
      (s.port p).presenceTime ≠ 0 → (s.port p).presence = some x → x.time * 1000 ≤ x.elapsed →
      exec (.presenceTimerExpiry p) (frameArrives p f s) = .next (frameArrives p f s)) ∧
    ((s.port p).presence.isSome = true → (s.port p).lateExpiry = false → (s.port p).presenceLevel ≠ .none →
      let u := holdInsert (.link p) (s.port p).presenceLevel (setPort p { s.port p with presence := none } s)
      let t := report .presenceLost (some (portNumber p)) u
      let b := s.bank .link
      let d := t.bank .link
      let record : FaultRecord :=
        { code := .presenceLost, subject := some (portNumber p), angle := s.ptr.angle, time := s.cfs.clock,
          beforeRestart := false }
      exec (.presenceTimerExpiry p) s = .next t ∧ (t.port p).presence = none ∧
      t.hold (.link p) = some { id := .link p, level := (s.port p).presenceLevel, time := s.cfs.clock } ∧
      t.hlu.effective = highestLevel t.hlu.entries ∧ (∀ i, i ≠ .link p → i ≠ .boarding → t.hold i = s.hold i) ∧
      (b.mask.getLsbD 23 = true → t = u ∧ t.fbu = s.fbu) ∧
      (b.mask.getLsbD 23 = false → d.counter = min 4095 (b.counter + 1) ∧
        d.thresholdReached = (b.thresholdReached || decide (b.threshold ≠ 0 ∧ b.threshold ≤ min 4095 (b.counter + 1))) ∧
        (b.record = none → d.record = some record ∧ d.overflow = b.overflow) ∧
        (∀ r, b.record = some r → r.code.cls = .correctable → d.record = some record ∧ d.overflow = true) ∧
        (∀ r, b.record = some r → r.code.cls ≠ .correctable → d.record = some r ∧ d.overflow = true) ∧
        d.hold = b.hold) ∧
      (∀ x, x ≠ .link → t.bank x = s.bank x) ∧
      t.ptr = s.ptr ∧ t.wmn = s.wmn ∧ t.pim = s.pim ∧ t.cfs = s.cfs)

/-- A hunting receiver waits for 0xC3; a framing error, a LEN out of range or a wrong CRC-16 ends a frame with CRC_ERROR,
and its timer with FRAME_TIMEOUT, each reported for the port. In HUNTING there is no frame to time out (this model's
choice: log 4). -/
def Obligations.ReceiverDiscardsBadFrames : Prop :=
  ∀ (p : Port) (s : State), s.time.resetHeld = false →
    let dropped : State := setPort p { s.port p with receiver := .hunting } s
    ((s.port p).receiver = .hunting →
      exec (.linkByteReceived p 0xC3 true) s = .next (setPort p { s.port p with receiver := .inFrame [] 0 } s) ∧
      exec (.frameTimeout p) s = .next s ∧
      ∀ (b : Byte) (ok : Bool), b ≠ 0xC3 ∨ ok = false → exec (.linkByteReceived p b ok) s = .next s) ∧
    ∀ (bytes : List Byte) (e : Nat), (s.port p).receiver = .inFrame bytes e →
      (∀ b : Byte, exec (.linkByteReceived p b false) s = .next (report .crcError (some (portNumber p)) dropped)) ∧
      (bytes = [] → ∀ len : Byte, len.toNat < 2 ∨ 202 < len.toNat →
        exec (.linkByteReceived p len true) s = .next (report .crcError (some (portNumber p)) dropped)) ∧
      (bytes = [] → ∀ len : Byte, 2 ≤ len.toNat → len.toNat ≤ 202 →
        exec (.linkByteReceived p len true) s = .next (setPort p { s.port p with receiver := .inFrame [len] e } s)) ∧
      (∀ (kind tag high low : Byte) (payload : List Byte), payload.length ≤ 200 →
        let covered : List Byte := BitVec.ofNat 8 (payload.length + 2) :: kind :: tag :: payload
        bytes = covered ++ [high] →
        ([high, low] ≠ halfBytes (crc16 covered) →
          exec (.linkByteReceived p low true) s = .next (report .crcError (some (portNumber p)) dropped)) ∧
        ([high, low] = halfBytes (crc16 covered) → exec (.linkByteReceived p low true) s =
          .next (frameArrives p { kind := kind, tag := tag, payload := payload } dropped))) ∧
      exec (.frameTimeout p) s = .next (report .frameTimeout (some (portNumber p)) dropped)

/-- A notice is begun at once by an idle transmitter with nothing waiting, joins the tail of an outbox of fewer than 16,
and is dropped at a full one, whose port then has the notice-lost flag. A transmitter that has finished begins the reply
in the slot, or else the oldest notice, and is idle when both are empty; one that sends nothing has nothing to finish
(this model's choice: log 4). The slot that the reply leaves lets the port take the oldest waiting frame, whose own reply
then waits in it. -/
def Obligations.TransmitterBeginsReplyFirst : Prop :=
  (∀ (n : Notice) (q : PortState),
    let idle := q.transmitter = none ∧ q.reply = none ∧ q.outbox = []
    (idle → portNotice n q = { q with transmitter := some (.notice n) }) ∧
    (¬idle → q.outbox.length < 16 → portNotice n q = { q with outbox := q.outbox ++ [n] }) ∧
    (16 ≤ q.outbox.length → portNotice n q = { q with noticeLost := true })) ∧
  ∀ (p : Port) (s : State), s.time.resetHeld = false →
    ((s.port p).transmitter = none → exec (.transmitDone p) s = .next s) ∧
    ((s.port p).transmitter.isSome = true → (s.port p).fifo = [] →
      (∀ f, (s.port p).reply = some f → exec (.transmitDone p) s =
        .next (setPort p { s.port p with transmitter := some (.reply f), reply := none } s)) ∧
      (∀ n rest, (s.port p).reply = none → (s.port p).outbox = n :: rest → exec (.transmitDone p) s =
        .next (setPort p { s.port p with transmitter := some (.notice n), outbox := rest } s)) ∧
      ((s.port p).reply = none → (s.port p).outbox = [] → exec (.transmitDone p) s =
        .next (setPort p { s.port p with transmitter := none } s))) ∧
    ((s.port p).transmitter.isSome = true → ∀ f r rest, (s.port p).fifo = f :: rest → (s.port p).reply = some r →
      f.kind ≠ 0x0E → ∃ t, exec (.transmitDone p) s = .next t ∧
        t = handleFrame p f (setPort p { s.port p with transmitter := some (.reply r), reply := none, fifo := rest } s) ∧
        (t.port p).transmitter = some (.reply r) ∧ (t.port p).fifo = rest ∧
        ∃ a, (t.port p).reply = some a ∧ a.tag = f.tag ∧
          (a.kind = f.kind + 0x40 ∨ (a.kind = 0x7F ∧ a.payload.head? = some f.kind)))

/-- A request that finds the reply slot taken waits in the FIFO, its frame heard all the same: a LINK entry goes and the
presence timer starts again. One that finds the FIFO full is discarded with INPUT_OVERRUN and heard by nobody. At a port
that is free but for its LINK entry, the entry goes and the request is then taken as at a free port. -/
def Obligations.BusyPortKeepsFrameWaiting : Prop :=
  ∀ (p : Port) (tag : Byte) (r : Request) (s : State), s.time.resetHeld = false →
    let f := requestFrame tag r
    let waiting : State := setPort p { s.port p with fifo := (s.port p).fifo ++ [f] } s
    (2 ≤ (s.port p).fifo.length → requestArrives p tag r s = .next (report .inputOverrun (some (portNumber p)) s)) ∧
    ((s.port p).fifo.length < 2 → (s.port p).reply.isSome = true → (s.port p).transmitter.isSome = true →
      (s.hold (.link p) = none → requestArrives p tag r s = .next (heard p waiting)) ∧
      ∃ t, requestArrives p tag r s = .next t ∧ t.hold (.link p) = none ∧
        (t.port p).fifo = (s.port p).fifo ++ [f] ∧
        (s.cfs.device = .service → (s.port p).presenceTime ≠ 0 →
          (t.port p).presence = some { elapsed := 0, time := (s.port p).presenceTime })) ∧
    ((s.port p).fifo = [] → (s.port p).reply = none → (s.hold (.link p)).isSome = true →
      let u := holdRemove (.link p) s
      PortFree p u ∧ requestArrives p tag r s = requestArrives p tag r u ∧
      u.hlu.effective = highestLevel u.hlu.entries ∧ ∀ i, i ≠ .link p → i ≠ .boarding → u.hold i = s.hold i)

/-! ### Requests: refusals of the port -/

/-- A KIND outside the catalogue is refused UNKNOWN_KIND, the platform desk's requests that the catalogue keeps for the
control room are refused NOT_PERMITTED, and a payload whose length does not fit its KIND is refused BAD_LENGTH, with
nothing else changed. -/
def Obligations.PortRefusesUnknownAndForbidden : Prop :=
  (∀ (p : Port) (tag kind : Byte) (payload : List Byte) (s : State), unknownKindOk kind = true → PortFree p s →
    exec (.requestUnknownKind p tag kind payload) s =
      refuses p { kind := kind, tag := tag, payload := payload } .unknownKind 0 s) ∧
  (∀ (tag a b c : Byte) (vs : List (Byte × Quad)) (hs : List Half) (s : State), PortFree .p2 s →
    ∀ r ∈ [Request.configSet a b vs, .commission, .decommission, .restart, .run a, .cabinService a b,
        .windProfileWrite a hs, .windProfileSelect a, .faultAck a, .faultClear a, .counterClear a, .faultMask a b c,
        .decelTrialStart, .clearTrip],
      requestArrives .p2 tag r s = refuses .p2 (requestFrame tag r) .notPermitted 0 s) ∧
  ∀ (p : Port) (f : Frame) (s : State), PortFree p s →
    p = .p1 ∨ f.kind.toNat ≤ 0x0A ∨ (0x10 ≤ f.kind.toNat ∧ f.kind.toNat ≤ 0x18) →
    (∀ n, (f.kind, n) ∈ [((0x01 : Byte), 0), (0x02, 1), (0x03, 1), (0x04, 0), (0x05, 0), (0x06, 0), (0x07, 0), (0x08, 1),
        (0x09, 0), (0x0A, 2), (0x0C, 0), (0x0D, 0), (0x0E, 0), (0x0F, 1), (0x10, 2), (0x11, 1), (0x12, 6), (0x13, 2),
        (0x14, 1), (0x15, 1), (0x16, 2), (0x17, 2), (0x18, 2), (0x19, 2), (0x1A, 35), (0x1B, 1), (0x1C, 1), (0x1D, 1),
        (0x1E, 1), (0x1F, 3), (0x20, 0), (0x21, 0)] →
      f.payload.length ≠ n → (Host.Outcome.next (frameArrives p f s) : Result) = refuses p f .badLength 0 s) ∧
    (f.kind = 0x0B → (∀ m, 1 ≤ m → m ≤ 39 → f.payload.length ≠ 2 + 5 * m) →
      (Host.Outcome.next (frameArrives p f s) : Result) = refuses p f .badLength 0 s)

/-! ### Requests that read -/

/-- STATUS answers its 94 bytes and 13 for each limit point, and clears the sending port's notice-lost flag alone. The
drive reference word is that of the latest control update, at bytes 20 and 21. -/
def Obligations.StatusAnswersAndClearsNoticeLost : Prop :=
  ∀ (p : Port) (tag : Byte) (s : State), PortFree p s →
    let f := requestFrame tag .status
    let u := taken p f s
    exec (.status p tag) s = accepts p f (statusPayload u) (setPort p { u.port p with noticeLost := false } u) ∧
      (statusPayload u).length = 94 + 13 * s.roc.limits.length ∧
      ((statusPayload u).drop 20).take 2 = be2 s.roc.updateRef

/-- HOLD_LIST, MOVE_READ, WIND_READ, INPUTS_READ and TRIAL_READ answer what stands when they are taken and change nothing.
The layouts of the payloads, which chapter 11 does not table, are this model's (logs 17, 42, 43 and 44). -/
def Obligations.BlockReadsAnswerAndChangeNothing : Prop :=
  ∀ (p : Port) (tag : Byte) (s : State), PortFree p s →
    (let f := requestFrame tag .holdList;
      exec (.holdList p tag) s = accepts p f (holdListPayload s) (taken p f s)) ∧
    (let f := requestFrame tag .moveRead;
      exec (.moveRead p tag) s = accepts p f (movePayload s) (taken p f s)) ∧
    (let f := requestFrame tag .windRead;
      exec (.windRead p tag) s = accepts p f (windPayload s) (taken p f s)) ∧
    (let f := requestFrame tag .inputsRead;
      exec (.inputsRead p tag) s = accepts p f (inputsPayload s) (taken p f s)) ∧
    (let f := requestFrame tag .trialRead;
      exec (.trialRead p tag) s = accepts p f (trialPayload s) (taken p f s))

/-- CABIN_READ, QUEUE_READ and FAULT_READ answer the record or records they name and change nothing, and are refused
BAD_FIELD for a cabin outside 1..N, a position outside 1..32, a bank above 5. The layout of QUEUE_READ's payload, which
chapter 11 does not table, is this model's (log 17). -/
def Obligations.NumberedReadsAnswerOrRefuse : Prop :=
  ∀ (p : Port) (tag n : Byte) (s : State), PortFree p s →
    (let f := requestFrame tag (.cabinRead n);
      (1 ≤ n.toNat ∧ n.toNat ≤ s.cfs.geometry.n →
        exec (.cabinRead p tag n) s = accepts p f (cabinPayload n.toNat s) (taken p f s)) ∧
      (n.toNat = 0 ∨ s.cfs.geometry.n < n.toNat → exec (.cabinRead p tag n) s = refuses p f .badField 1 s)) ∧
    (let f := requestFrame tag (.queueRead n);
      (1 ≤ n.toNat ∧ n.toNat ≤ 32 →
        exec (.queueRead p tag n) s = accepts p f (queuePayload n.toNat s) (taken p f s)) ∧
      (n.toNat = 0 ∨ 32 < n.toNat → exec (.queueRead p tag n) s = refuses p f .badField 1 s)) ∧
    (let f := requestFrame tag (.faultRead n);
      (n.toNat = 0 → exec (.faultRead p tag n) s = accepts p f (faultPayload allBanks s) (taken p f s)) ∧
      (∀ b, BankId.ofNumber n.toNat = some b →
        exec (.faultRead p tag n) s = accepts p f (faultPayload [b] s) (taken p f s)) ∧
      (5 < n.toNat → exec (.faultRead p tag n) s = refuses p f .badField 1 s))

/-- CONFIG_GET answers every value of the entry, GEOMETRY's followed by CPR, and changes nothing; an unknown table or
index is refused BAD_FIELD. -/
def Obligations.ConfigGetAnswersEntry : Prop :=
  ∀ (p : Port) (tag table index : Byte) (s : State), PortFree p s →
    let f := requestFrame tag (.configGet table index)
    (∀ t e, Table.ofNumber table.toNat = some t → t.entry index.toNat = some e →
      exec (.configGet p tag table index) s =
        accepts p f (valueBytes t (s.values e) ++ (if t = .geometry then be4 (s.cfs.geometry.n * s.cfs.geometry.p) else []))
          (taken p f s)) ∧
    (Table.ofNumber table.toNat = none → exec (.configGet p tag table index) s = refuses p f .badField 1 s) ∧
    (∀ t, Table.ofNumber table.toNat = some t → t.entry index.toNat = none →
      exec (.configGet p tag table index) s = refuses p f .badField 2 s)

/-! ### Configuration and device state -/

/-- Each table's CONFIG_SET, when its judgement passes, writes the entry with the effect of its rule and answers the
table, the index and the entry's values after the write; when it fails, it is refused with nothing written. -/
def Obligations.ConfigSetWritesEntry : Prop :=
  ∀ (tag index : Byte) (values : List (Byte × Quad)) (s : State), PortFree .p1 s → valueListOk values = true →
    ∀ (number : Byte) (command : Instr),
      (number, command) ∈ [((1 : Byte), Instr.configSetGeometry .p1 tag index values),
        (2, .configSetZones .p1 tag index values), (3, .configSetSpeeds .p1 tag index values),
        (4, .configSetRing .p1 tag index values), (5, .configSetBoarding .p1 tag index values),
        (6, .configSetBalance .p1 tag index values), (7, .configSetWindChannels .p1 tag index values),
        (8, .configSetInputs .p1 tag index values), (9, .configSetFaultCtl .p1 tag index values),
        (10, .configSetLink .p1 tag index values)] →
      let f := requestFrame tag (.configSet number index values)
      let u := taken .p1 f s
      (∀ t e list v, judgeConfig number index values s = .accepted t e list v →
        exec command s = accepts .p1 f
          (be1 t.number ++ be1 index.toNat ++ valueBytes t ((configWrite e list v u).values e)) (configWrite e list v u)) ∧
      (∀ reason n, judgeConfig number index values s = .refused reason n → exec command s = refuses .p1 f reason n s)

/-- The judgement of a CONFIG_SET: an index out of range, a first-four table in SERVICE, a number that the entry does not
hold, a value out of its range and a broken relation of the entry's values are refused in this order, the third with the
index of the number's field and the fourth with the index of the value's (log 16; the index of a refusal over a Kc that
the request does not write is free: log 15); a write that passes all has the entry's values with the new ones in
place. -/
def Obligations.ConfigSetJudgedInOrder : Prop :=
  ∀ (number index : Byte) (values : List (Byte × Quad)) (s : State),
    (Table.ofNumber number.toNat = none → judgeConfig number index values s = .refused .badField 1) ∧
    ∀ t, Table.ofNumber number.toNat = some t →
      (t.entry index.toNat = none → judgeConfig number index values s = .refused .badField 2) ∧
      ∀ e, t.entry index.toNat = some e →
        (number.toNat ≤ 4 → s.cfs.device = .service → judgeConfig number index values s = .refused .wrongState 0) ∧
        (s.cfs.device = .config ∨ 4 < number.toNat →
          (∀ pre n q post, values = pre ++ (n, q) :: post →
            (∀ x ∈ pre, 1 ≤ x.1.toNat ∧ x.1.toNat ≤ t.fields.length) → (pre.map Prod.fst).Nodup →
            n.toNat = 0 ∨ t.fields.length < n.toNat ∨ n ∈ pre.map Prod.fst →
            judgeConfig number index values s = .refused .badField (2 * pre.length + 3)) ∧
          (∀ t' e' list v, judgeConfig number index values s = .accepted t' e' list v →
            t' = t ∧ e' = e ∧ list = values.map (fun x => (x.1.toNat, t.read x.2)) ∧ v = withValues (s.values e) list ∧
            (values.map Prod.fst).Nodup) ∧
          ((∀ x ∈ values, 1 ≤ x.1.toNat ∧ x.1.toNat ≤ t.fields.length) → (values.map Prod.fst).Nodup →
            let fits (x : Byte × Quad) : Prop := ∀ f, t.fields[x.1.toNat - 1]? = some f → f.low ≤ t.read x.2 ∧ t.read x.2 ≤ f.high
            let list := values.map fun x => (x.1.toNat, t.read x.2)
            let v := withValues (s.values e) list
            let badSpeeds := t = .speeds ∧ nth v 7 0 < nth v 8 0
            let badBalance := t = .balance ∧ ¬(nth v 3 0 < nth v 2 0 ∧ nth v 2 0 ≤ nth v 1 0)
            let badChannel := t = .windChannels ∧ nth v 1 0 = 1 ∧ nth v 2 0 = 0
            (∀ pre x post, values = pre ++ x :: post → (∀ y ∈ pre, fits y) → ¬fits x →
              judgeConfig number index values s = .refused .badField (2 * pre.length + 4)) ∧
            ((∀ x ∈ values, fits x) →
              (badSpeeds → ∀ pre x post, values = pre ++ x :: post → (∀ y ∈ pre, y.1 ≠ 7 ∧ y.1 ≠ 8) → x.1 = 7 ∨ x.1 = 8 →
                judgeConfig number index values s = .refused .badField (2 * pre.length + 4)) ∧
              (badBalance → judgeConfig number index values s = .refused .badField 4) ∧
              (badChannel → ∃ i, judgeConfig number index values s = .refused .badField i ∧
                ∀ pre x post, values = pre ++ x :: post → x.1 = 2 → i = 2 * pre.length + 4) ∧
              (¬badSpeeds → ¬badBalance → ¬badChannel →
                judgeConfig number index values s = .accepted t e list v))))

/-- What a write does beyond its values: GEOMETRY loses the reference, stops the ring with its pointers kept (log 38),
empties the node records, the sums and the mounting-angle table, and at a new N the cabin records above the smaller N; a
SPEEDS write gives a_eff the new a_cfg; BALANCE judges the balance entry, and BOARDING the SLOW entry (log 13); a channel
enabled or disabled starts afresh; an INPUTS write forms the group and judges its entry; a LINK write starts or stops the
presence timer, or leaves it running toward the time that it was started with, and sets the level of a LINK entry. -/
def Obligations.ConfigWriteEffects : Prop :=
  ∀ (s : State) (list : List (Nat × Int)) (v : List Int),
    (let t := configWrite .geometry list v s;
      let least := min (geometryOf v).n s.cfs.geometry.n;
      t.ptr.referenced = false ∧ t.ptr.angle = 0 ∧ t.ptr.latch = none ∧ t.ptr.passRecords = List.replicate 48 none ∧
      t.cfs.geometry = geometryOf v ∧ t.ptr.history = s.ptr.history ∧ t.wmn = s.wmn ∧
      t.cru = { s.cru with running := false, flight := none, nodes := List.replicate 48 Node.cold } ∧
      ((geometryOf v).n = s.cfs.geometry.n → t.bsq.cabins = s.bsq.cabins) ∧
      ((geometryOf v).n ≠ s.cfs.geometry.n → t.bsq.cabins =
        s.bsq.cabins.take least ++ (s.bsq.cabins.drop least).map fun c => { Cabin.cold with manifest := c.manifest }) ∧
      t.bsq.queue = s.bsq.queue ∧ t.bsq.angles = none ∧ t.bsq.sumX = 0 ∧ t.bsq.sumY = 0 ∧ t.bsq.sumQ = 0 ∧
      t.hold .balance = none) ∧
    configWrite .speeds list v s =
      { s with cfs := { s.cfs with speeds := speedsOf v }, roc := { s.roc with aEff := (speedsOf v).aCfg } } ∧
    configWrite .zones list v s = { s with cfs := { s.cfs with zones := zonesOf v } } ∧
    configWrite .ring list v s =
      { s with cfs := { s.cfs with ring := { tNode := natValue v 1, tCloseMax := natValue v 2 } } } ∧
    (let t := configWrite .boarding list v s;
      t.cfs = { s.cfs with boarding := boardingOf v } ∧ t.bsq = { s.bsq with boardingMove := t.bsq.boardingMove } ∧
      t.cru = s.cru ∧ t.fbu = s.fbu ∧
      ∀ k, s.bsq.slowTarget = some k → s.bsq.slowCrossed = false → ((t.limit .slow).isSome = true ↔
        (s.cabin k).service ≠ .outOfService ∨ (s.cabin k).manifest.isSome = true ∨ natValue v 1 < (s.node k).load)) ∧
    (let t := configWrite .balance list v s;
      let warn : Int := (natValue v 2 * 4096 * (natValue v 2 * 4096) : Nat);
      let clear : Int := (natValue v 3 * 4096 * (natValue v 3 * 4096) : Nat);
      t.cfs = { s.cfs with balance := balanceOf v } ∧
      ((s.hold .balance).isSome = true → t.hold .balance = if s.bsq.sumQ ≤ clear then none else s.hold .balance) ∧
      (s.hold .balance = none → t.hold .balance =
        if warn < s.bsq.sumQ then some { id := .balance, level := .slow, time := s.cfs.clock } else none)) ∧
    (∀ ch : Channel,
      let c := s.channel ch
      let on := nth v 1 0 == 1
      (c.enable = on → configWrite (.windChannel ch) list v s = setChannel ch { c with kc := natValue v 2 } s) ∧
      (c.enable ≠ on → configWrite (.windChannel ch) list v s = setChannel ch
        { enable := on, kc := natValue v 2, validity := if on then .valid else .disabled, ring := [], sampleCount := 0,
          gust := 0, meanQ := 0, initialised := false, mean := 0, clamped := false, zeroRun := 0, recoveryRun := 0,
          pulses := c.pulses } s)) ∧
    (∀ (g : GroupId) (level : Level), Level.ofCode (natValue v 3) = some level →
      let t := configWrite (.inputGroup g) list v s
      let c := s.group g
      let d := t.group g
      d.select = BitVec.ofNat 8 (natValue v 1) ∧ d.expected = BitVec.ofNat 8 (natValue v 2) ∧ d.level = level ∧
      d.noticeEnable = (nth v 4 0 == 1) ∧ (∀ x, x ≠ g → t.group x = s.group x) ∧
      (d.select = c.select → d.expected = c.expected → d.isMatch = c.isMatch ∧ d.factor = c.factor) ∧
      (d.select ≠ c.select ∨ d.expected ≠ c.expected →
        d.isMatch = decide ((s.filteredMask g ^^^ d.expected) &&& d.select = 0) ∧
        d.factor = (c.factor || (c.isMatch && !d.isMatch))) ∧
      (d.select = c.select → d.expected = c.expected → d.level = c.level → t.hlu = s.hlu) ∧
      (d.select ≠ c.select ∨ d.expected ≠ c.expected ∨ d.level ≠ c.level →
        ((t.hold (.inputs g)).isSome = true ↔ level ≠ .none ∧ (d.isMatch = false ∨ d.factor = true)) ∧
        ∀ e, t.hold (.inputs g) = some e → e.level = level)) ∧
    (∀ b : BankId, configWrite (.faultBank b) list v s = setBank b
      { s.bank b with
        threshold := natValue v 1, noticeCorrectable := nth v 2 0 == 1, noticeDeferred := nth v 3 0 == 1 } s) ∧
    (∀ p, natValue v 1 = 0 → (∃ x, (1, x) ∈ list) →
      let t := configWrite (.linkPort p) list v s
      (t.port p).presence = none ∧ (t.port p).presenceTime = 0 ∧ t.hold (.link p) = none) ∧
    (∀ (p : Port) (level : Level), Level.ofCode (natValue v 2) = some level → level ≠ .none →
      let t := configWrite (.linkPort p) list v s
      let stands := (s.hold (.link p)).isSome
      (t.port p).presenceTime = natValue v 1 ∧ (t.port p).presenceLevel = level ∧
      ((∃ x, (1, x) ∈ list) → natValue v 1 ≠ 0 →
        (t.port p).presence = if s.cfs.device = .service ∧ stands = false then
          some { elapsed := 0, time := natValue v 1 } else (s.port p).presence) ∧
      ((∀ x, (1, x) ∉ list) → (t.port p).presence = (s.port p).presence) ∧
      ((∀ x, (1, x) ∉ list) ∨ natValue v 1 ≠ 0 →
        ((∃ x, (2, x) ∈ list) → stands = true →
          t.hold (.link p) = some { id := .link p, level := level, time := s.cfs.clock }) ∧
        ((∀ x, (2, x) ∉ list) ∨ stands = false → t.hlu = s.hlu)))

/-- COMMISSION runs the nine checks in their order in CONFIG, and enters SERVICE with the commissioned geometry, a_eff at
a_cfg, the mounting-angle table built and the sums formed from the stored loads with the balance entry judged, every node
UNKNOWN, the ring RUNNING with its first transaction (log 19), and the presence timers from 0; it is refused in SERVICE,
and with the number of the first failing check. With the wheel referenced it then seeds the pass records, as
ControlUpdateMovesWheelAngle states them, and each cabin's phase from its record in the order of the cabins (an A record
with the clean-pass marker and no times changed: log 23; a cabin made PASSING loses the marker: log 51), and chooses the
SLOW target. -/
def Obligations.CommissionEntersService : Prop :=
  (∀ (tag : Byte) (s : State), PortFree .p1 s →
    let f := requestFrame tag .commission
    let t := commission (taken .p1 f s)
    let g := s.cfs.geometry
    let z := s.cfs.zones
    let v := s.cfs.speeds
    let b := s.cfs.balance
    let passes (n : Nat) : Prop :=
      match n with
      | 1 => g.n * g.p ≤ 4194304
      | 2 => z.a < z.d ∧ z.d < 0 ∧ 0 < z.c ∧ z.c < z.x ∧ z.c < g.p ∧ z.x ≤ 2 * (g.p : Int) ∧
          z.x - z.a ≤ 3 * (g.p : Int) ∧ z.o ≤ g.p
      | 3 => 20 ≤ v.board ∧ v.board ≤ v.cruise ∧ 20 ≤ v.capUnloadOnly ∧ v.capUnloadOnly ≤ v.capNoBoard ∧
          v.capNoBoard ≤ v.capSlow ∧ v.capSlow ≤ v.cruise
      | 4 => v.aMin ≤ v.aCfg
      | 5 => ((v.board * s.cfs.ring.tCloseMax + (v.board * v.board + 2 * v.aCfg - 1) / (2 * v.aCfg)
            + (v.board * 1000 + 19999) / 20000 + v.margin : Nat) : Int) ≤ (z.x - z.c) * g.u / 1000
      | 6 => b.clear < b.warn ∧ b.warn ≤ b.lim
      | 7 => s.cfs.boarding.perPerson ≤ s.cfs.boarding.maxLoad
      | 8 => g.iRef < g.n * g.p
      | 9 => (∀ c ∈ s.bsq.cabins, c.manifest = none) ∨ s.cfs.commissioned = some g
      | _ => True
    (s.cfs.device = .service → exec (.commission .p1 tag) s = refuses .p1 f .wrongState 0 s) ∧
    (∀ n, s.cfs.device = .config → (∀ i < n, passes i) → ¬passes n →
      exec (.commission .p1 tag) s = refuses .p1 f .configInvalid n s) ∧
    (s.cfs.device = .config → (∀ n, passes n) →
      exec (.commission .p1 tag) s = accepts .p1 f (be1 2 ++ be4 s.cfs.clock) t ∧
      t.cfs.device = .service ∧ t.cfs.commissioned = some s.cfs.geometry ∧ t.roc.aEff = s.cfs.speeds.aCfg ∧
      t.cru.running = true ∧ t.wmn = s.wmn ∧ t.ptr.angle = s.ptr.angle ∧ t.ptr.referenced = s.ptr.referenced ∧
      ((s.port .p1).presenceTime ≠ 0 →
        (t.port .p1).presence = some { elapsed := 0, time := (s.port .p1).presenceTime }) ∧
      ((s.port .p2).presenceTime ≠ 0 →
        (t.port .p2).presence = some { elapsed := 0, time := (s.port .p2).presenceTime }) ∧
      (let u := taken .p1 f s;
        let summed := formSums { u with
          cfs := { s.cfs with device := .service, commissioned := some g }
          roc := { s.roc with aEff := v.aCfg }
          bsq := { s.bsq with angles := some (angleTable g.n) } };
        let ready : State := { summed with cru :=
          { running := true, flight := s.cru.flight, windowPointer := none, roundPointer := g.n, nextSlot := .window,
            nodes := s.cru.nodes.map fun n => { n with state := .unknown } } };
        let rung := if s.cru.flight = none then endTransaction ready else ready;
        ∃ timed : State, timed = { rung with lkp := timed.lkp } ∧
          (s.ptr.referenced = false → t = timed) ∧ (s.ptr.referenced = true → t = seedAll timed)))) ∧
  (∀ s : State,
    let g := s.cfs.geometry
    let z := s.cfs.zones
    let seeded := seedRecords s
    seeded = { s with ptr := { s.ptr with passRecords := seeded.ptr.passRecords } } ∧
    (∀ k, 1 ≤ k → k ≤ g.n →
      let x := g.position s.ptr.angle k
      (x < z.a ∨ z.x + z.o ≤ x → seeded.passRecord k = none) ∧
      (z.a ≤ x → x < z.x + z.o → ∃ ln, seeded.passRecord k = some ln ∧ z.line ln ≤ x ∧
        ∀ m, z.line m ≤ x → lineRank (some m) ≤ lineRank (some ln))) ∧
    (s.cfs.device = .config → seedAll s = seeded) ∧
    (s.cfs.device = .service →
      seedAll s = slowChoose ((List.range g.n).foldl (fun x k => seedPhase (k + 1) x) seeded))) ∧
  ∀ (k : Nat) (s : State), 1 ≤ k → k ≤ s.bsq.cabins.length → k ≤ s.cru.nodes.length →
    let r := s.passRecord k
    let ph := (s.cabin k).phase
    let t := seedPhase k s
    (ph = .away ∨ ph = .arriving →
      (r = some .a → t.cabin k = { s.cabin k with phase := .arriving, cleanPass := true }) ∧
      (r = some .d ∨ r = some .l ∨ r = some .c → (t.node k).pending = some .close ∧ t.cabin k =
        { s.cabin k with phase := .passing, lastPass := some (.notReleased .start), cleanPass := false }) ∧
      (r = some .x ∨ r = none → t = if ph = .arriving then depart k s else s)) ∧
    (ph = .unloading ∧ (r = some .a ∨ r = some .d) ∨ ph = .loading ∧ (r = some .a ∨ r = some .d ∨ r = some .l) ∨
      (ph = .closing ∨ ph = .doorHold ∨ ph = .passing) ∧ r ≠ some .x ∧ r ≠ none → t = s) ∧
    (ph = .unloading → r = some .l → t = crossing k .l s) ∧
    (ph = .unloading → r = some .c → t = crossing k .c (crossing k .l s)) ∧
    (ph = .unloading → r = some .x ∨ r = none → t = crossing k .x (crossing k .c (crossing k .l s))) ∧
    (ph = .loading → r = some .c → t = crossing k .c s) ∧
    (ph = .loading → r = some .x ∨ r = none → t = crossing k .x (crossing k .c s)) ∧
    (ph = .unloading ∨ ph = .loading → r = some .c → (t.cabin k).phase = .closing ∧ (t.node k).pending = some .close) ∧
    (ph = .closing ∨ ph = .doorHold ∨ ph = .passing → r = some .x ∨ r = none → t = crossing k .x s)

/-- DECOMMISSION takes a wheel at rest out of service: CONFIG, run-enable clear, no limit points, the moves ended, the
presence timers stopped, the gate locked; otherwise it is refused. -/
def Obligations.DecommissionLeavesService : Prop :=
  ∀ (tag : Byte) (s : State), PortFree .p1 s →
    let f := requestFrame tag .decommission
    let t := decommission (taken .p1 f s)
    (s.cfs.device = .config ∨ (s.roc.rotation ≠ .braked ∧ s.roc.rotation ≠ .tripped) →
      exec (.decommission .p1 tag) s = refuses .p1 f .wrongState 0 s) ∧
    (s.cfs.device = .service → s.roc.rotation = .braked ∨ s.roc.rotation = .tripped →
      exec (.decommission .p1 tag) s = accepts .p1 f (be1 1) t ∧
      t.cfs.device = .config ∧ t.roc.runEnable = false ∧ t.roc.limits = [] ∧ t.bsq.gate = none ∧
      (t.port .p1).presence = none ∧ (t.port .p2).presence = none ∧ t.bsq.queue = s.bsq.queue ∧ t.wmn = s.wmn ∧
      t.ptr = s.ptr ∧
      (∀ m, s.mvu.slotA = some m → m.status = .active ∨ m.status = .arrived →
        t.mvu.slotA = some { m with status := .aborted, cause := some .decommission }) ∧
      (∀ m, s.mvu.slotB = some m → m.status = .pending → t.mvu.slotB = some { m with status := .cancelled }))

/-- RESTART performs the warm reset on a wheel at rest, and is refused on any other. CONFIG is entered; the position,
every table, the profiles, the banks (their records marked as made before the restart), the service states, manifests and
times, the move number and the trial are kept; the runs, the queue, the pass records, the moves, the nodes, the histories
of wheel and wind, and the ports' frames and notices go. The hold set is emptied and then holds the wind's entry, that of
each pending bank, and that of each group found in MISMATCH; PARK trips the wheel again. With the deltas gone the speed is
0, and target, limiting term, the latest update's word, waiting-drive-ready and the wind's latest sample are as after a
cold reset (this model's choice: log 2). -/
def Obligations.RestartPerformsWarmReset : Prop :=
  ∀ (tag : Byte) (s : State), PortFree .p1 s →
    let f := requestFrame tag .restart
    let t := warmReset (taken .p1 f s)
    let level : WindLevel := if s.wmn.level.code < 2 then .gusty else s.wmn.level
    let departed (g : GroupId) : Bool :=
      decide ((t.filteredMask g ^^^ (s.group g).expected) &&& (s.group g).select ≠ 0)
    (s.roc.rotation ≠ .braked → s.roc.rotation ≠ .tripped →
      exec (.restart .p1 tag) s = refuses .p1 f .wrongState 0 s) ∧
    (s.roc.rotation = .braked ∨ s.roc.rotation = .tripped →
      exec (.restart .p1 tag) s = accepts .p1 f [] t ∧
      t.cfs = { s.cfs with device := .config } ∧ t.time = { s.time with control := 0, sample := 0 } ∧
      t.ptr = { s.ptr with latch := none, history := [], zeroRun := 0, standstill := false, speed := 0,
                           passRecords := List.replicate 48 none } ∧
      t.roc =
        { rotation := if t.hlu.effective = .park then .tripped else .braked, runEnable := false, vCmd := 0,
          aEff := s.cfs.speeds.aCfg, limits := [], releaseTimer := none,
          brakeSetTimer := if s.roc.brakeSet then none else some 0, brakeConfirmed := s.roc.brakeSet, standTimer := none,
          tracking := 0, grace := none, trialStep := false, target := 0, limiting := .held, waitingDriveReady := false,
          driveRef := 0, updateRef := 0, driveReady := s.roc.driveReady, brakeReleased := s.roc.brakeReleased,
          brakeSet := s.roc.brakeSet } ∧
      (s.mvu.trial.status ≠ .measuring → t.mvu = { s.mvu with slotA := none, slotB := none }) ∧
      t.mvu.slotA = none ∧ t.mvu.slotB = none ∧ t.mvu.nextNumber = s.mvu.nextNumber ∧
      t.cru =
        { running := false, flight := none, windowPointer := none, roundPointer := s.cfs.geometry.n, nextSlot := .window,
          nodes := List.replicate 48
            { state := .unknown, door := .unknown, load := 0, call := false, selfCheck := false, pending := none,
              taken := false, awayReported := false, lastAnswer := none } } ∧
      t.bsq = { s.bsq with
        cabins := s.bsq.cabins.map fun c => { c with
          phase := .away, cleanPass := false, closeAnswered := false, admittedThisPass := false, departureDue := false }
        slowTarget := none, slowCrossed := false, boardingMove := none, gate := none, queue := [], sumX := 0, sumY := 0,
        sumQ := 0 } ∧
      t.wmn = { s.wmn with
        channels := t.wmn.channels, level := level, calm := 0, calmRuns := true, warmUp := 0, gust := 0, mean := 0,
        noValid := !((s.channel .hub).enable || (s.channel .platform).enable || (s.channel .river).enable)
        warranted := .calm, floorLevel := .calm
        floorConds := { noValid := false, oneValid := false, warmUp := false } } ∧
      (∀ ch, t.channel ch =
        { enable := (s.channel ch).enable, kc := (s.channel ch).kc
          validity := if (s.channel ch).enable then .valid else .disabled
          ring := [], sampleCount := 0, gust := 0, meanQ := 0, initialised := false, mean := 0, clamped := false,
          zeroRun := 0, recoveryRun := 0, pulses := 0 }) ∧
      t.pim.inputs = s.pim.inputs.map (fun i => { raw := i.raw, filtered := i.raw, timer := none }) ∧
      (∀ g, t.group g = { s.group g with isMatch := !departed g, factor := departed g }) ∧
      (∀ b, let kept : Bank := { s.bank b with record := (s.bank b).record.map fun r => { r with beforeRestart := true } };
        (b ≠ .platform ∨ (∀ g, departed g = false) → t.bank b = kept) ∧
        t.bank b = { kept with
          record := (t.bank b).record, overflow := (t.bank b).overflow, counter := (t.bank b).counter,
          thresholdReached := (t.bank b).thresholdReached }) ∧
      t.hold .wind = some { id := .wind, level := level.hold, time := s.cfs.clock } ∧
      (∀ b, t.hold (.fault b) =
        (s.bank b).hold.map fun a => { id := .fault b, level := a.level, time := s.cfs.clock }) ∧
      (∀ g, t.hold (.inputs g) =
        if (s.group g).level ≠ .none ∧ departed g = true then
          some { id := .inputs g, level := (s.group g).level, time := s.cfs.clock } else none) ∧
      (∀ i, i ≠ .wind → (∀ b, i ≠ .fault b) → (∀ g, i ≠ .inputs g) → t.hold i = none) ∧
      t.hlu.effective = highestLevel t.hlu.entries ∧
      (∀ p, (t.port p).receiver = .hunting ∧ (t.port p).fifo = [] ∧ (t.port p).presence = none ∧
        (t.port p).presenceTime = (s.port p).presenceTime ∧ (t.port p).presenceLevel = (s.port p).presenceLevel ∧
        ((s.port p).noticeLost = true ∨ (s.port p).outbox ≠ [] ∨ (s.port p).reply.isSome = true →
          (t.port p).noticeLost = true)) ∧
      (t.port .p2).reply = none)

/-! ### Rotation requests -/

/-- RUN(on) sets run-enable in SERVICE and is refused in CONFIG; RUN(off) clears it in every device state. The rotation
state stays as it is. -/
def Obligations.RunSetsRunEnable : Prop :=
  ∀ (tag : Byte) (s : State), PortFree .p1 s →
    (let f := requestFrame tag (.run 1);
      let u := taken .p1 f s;
      (s.cfs.device = .service → exec (.runOn .p1 tag) s =
        accepts .p1 f (be1 1 ++ be1 s.roc.rotation.code) { u with roc := { u.roc with runEnable := true } }) ∧
      (s.cfs.device = .config → exec (.runOn .p1 tag) s = refuses .p1 f .wrongState 0 s)) ∧
    (let f := requestFrame tag (.run 0);
      let u := taken .p1 f s;
      exec (.runOff .p1 tag) s =
        accepts .p1 f (be1 0 ++ be1 s.roc.rotation.code) { u with roc := { u.roc with runEnable := false } })

/-- A change of the effective level to PARK trips the wheel, ends the moves and aborts a measuring trial, with the notices
TRIP, MOVE_STATUS of slot A and of slot B, and TRIAL_DONE in this order, each where it is due (waiting-drive-ready goes at
the trip: log 27; TRIAL_DONE after the moves: log 11); a change to STOP aborts a measuring trial, and any other changes
nothing. CLEAR_TRIP takes a tripped wheel at standstill below PARK to BRAKED, with everything else as it is, and is
refused otherwise. -/
def Obligations.ClearTripBrakesTrippedWheel : Prop :=
  (∀ (previous : Level) (s : State),
    let t := handToWheel previous s
    (s.hlu.effective = previous ∨ (s.hlu.effective ≠ .stop ∧ s.hlu.effective ≠ .park) → t = s) ∧
    (s.hlu.effective = .stop → previous ≠ .stop → t = abortTrial .level s) ∧
    (s.hlu.effective = .park → previous ≠ .park →
      let lifted := s.roc.rotation = .releasing ∨ s.roc.rotation = .running ∨ s.roc.rotation = .standing
      let parked (m : Move) : Move := { m with status := .aborted, cause := some .holdPark }
      let dropped (m : Move) : Move := { m with status := .cancelled }
      let under (m : Move) : Prop := m.status = .active ∨ m.status = .arrived
      let trial : Trial := { s.mvu.trial with
        status := .aborted, abortCause := some .level, aEffAfter := some s.roc.aEff, endTime := some s.cfs.clock }
      (s.roc.rotation = .tripped → t.roc = { s.roc with limits := t.roc.limits }) ∧
      (s.roc.rotation ≠ .tripped → t.roc = { s.roc with
        rotation := .tripped, vCmd := 0, driveRef := 0, releaseTimer := none, standTimer := none, tracking := 0,
        grace := none, trialStep := false, waitingDriveReady := false, limits := t.roc.limits
        brakeConfirmed := if lifted then s.roc.brakeSet else s.roc.brakeConfirmed
        brakeSetTimer := if lifted then (if s.roc.brakeSet then none else some 0) else s.roc.brakeSetTimer }) ∧
      (∀ m, s.mvu.slotA = some m → under m →
        t.mvu.slotA = some (parked m) ∧ t.roc.limits = s.roc.limits.filter fun e => e.origin != .move) ∧
      ((∀ m, s.mvu.slotA = some m → ¬under m) → t.mvu.slotA = s.mvu.slotA ∧ t.roc.limits = s.roc.limits) ∧
      (∀ m, s.mvu.slotB = some m → m.status = .pending → t.mvu.slotB = some (dropped m)) ∧
      ((∀ m, s.mvu.slotB = some m → m.status ≠ .pending) → t.mvu.slotB = s.mvu.slotB) ∧
      t.mvu.trial = (if s.mvu.trial.status = .measuring then trial else s.mvu.trial) ∧
      (∀ trips movesA movesB trials : List Notice,
        (trips = if s.roc.rotation = .tripped then [] else
          [.trip s.roc.rotation s.roc.vCmd s.ptr.speed s.ptr.angle s.ptr.referenced s.cfs.clock]) →
        (∀ m, s.mvu.slotA = some m → under m → movesA = [.moveStatus .a (some (parked m))]) →
        ((∀ m, s.mvu.slotA = some m → ¬under m) → movesA = []) →
        (∀ m, s.mvu.slotB = some m → m.status = .pending → movesB = [.moveStatus .b (some (dropped m))]) →
        ((∀ m, s.mvu.slotB = some m → m.status ≠ .pending) → movesB = []) →
        (trials = if s.mvu.trial.status = .measuring then [.trialDone trial] else []) →
        ∀ p, t.port p = (trips ++ movesA ++ movesB ++ trials).foldl (fun q n => portNotice n q) (s.port p)) ∧
      t.bsq = { s.bsq with boardingMove := t.bsq.boardingMove } ∧ t.ptr = s.ptr ∧ t.cru = s.cru ∧ t.wmn = s.wmn ∧
      t.hlu = s.hlu ∧ t.pim = s.pim ∧ t.fbu = s.fbu ∧ t.cfs = s.cfs)) ∧
  ∀ (tag : Byte) (s : State), PortFree .p1 s →
    let f := requestFrame tag .clearTrip
    let u := taken .p1 f s
    (s.roc.rotation = .tripped → s.ptr.standstill = true → s.hlu.effective ≠ .park →
      exec (.clearTrip .p1 tag) s =
        accepts .p1 f (be1 Rotation.braked.code) { u with roc := { u.roc with rotation := .braked } }) ∧
    (s.roc.rotation ≠ .tripped ∨ s.ptr.standstill = false ∨ s.hlu.effective = .park →
      exec (.clearTrip .p1 tag) s = refuses .p1 f .wrongState 0 s)

/-- DECEL_TRIAL_START begins a trial on a running wheel at 100 mm/s or more with no door out, slot A free and a level of
NONE or SLOW: a new record, and commanded speed and reference at 0. Otherwise it is refused. The reply's speed is two
signed bytes (log 17). Each update adds its delta to a measuring trial, after the tracking check and before the move's
judgement (log 9), the drive reference word being kept last (log 35); at standstill it is DONE, and a_eff takes the
candidate, or DECEL_INSUFFICIENT is reported; an abort keeps a_eff and sends TRIAL_DONE. -/
def Obligations.TrialStartStopsDrive : Prop :=
  (∀ (tag : Byte) (s : State), PortFree .p1 s →
    let f := requestFrame tag .decelTrialStart
    let u := taken .p1 f s
    let allowed := s.roc.rotation = .running ∧ s.roc.trialStep = false ∧ 100 ≤ s.ptr.speed ∧
      (∀ e ∈ s.roc.limits, ∀ k, e.origin ≠ .door k) ∧
      (∀ m, s.mvu.slotA = some m → m.status ≠ .active ∧ m.status ≠ .arrived) ∧
      (s.hlu.effective = .none ∨ s.hlu.effective = .slow)
    (allowed → exec (.decelTrialStart .p1 tag) s =
      accepts .p1 f (be2s s.ptr.speed ++ be4 s.cfs.clock)
        { u with
          mvu := { u.mvu with trial := { Trial.cold with
            status := .measuring, v0 := some s.ptr.speed, counts := some 0, startTime := some s.cfs.clock } }
          roc := { u.roc with vCmd := 0, driveRef := 0, trialStep := true, tracking := 0 } }) ∧
    (¬allowed → exec (.decelTrialStart .p1 tag) s = refuses .p1 f .wrongState 0 s)) ∧
  (∀ s : State, s.time.resetHeld = false →
    let w := updateWheel s
    exec .controlUpdate s = .next (keepWord (moveUpdate (trialUpdate (s.ptr.counter - s.ptr.sample).toInt
      (trackingCheck w.roc.trialStep (rotationStep w)))))) ∧
  ∀ (delta : Int) (s : State),
    (s.mvu.trial.status ≠ .measuring → trialUpdate delta s = s ∧ ∀ cause, abortTrial cause s = s) ∧
    ∀ (v0 counts : Int), s.mvu.trial.status = .measuring → s.mvu.trial.v0 = some v0 → s.mvu.trial.counts = some counts →
      let total := counts + delta
      let d := total.toNat * s.cfs.geometry.u / 1000
      let measured := if d = 0 then 65535 else min 65535 (v0.toNat * v0.toNat / (2 * d))
      let candidate := measured * 7 / 8
      let offered := min s.cfs.speeds.aCfg candidate
      let t := trialUpdate delta s
      (s.ptr.standstill = false →
        t = { s with mvu := { s.mvu with trial := { s.mvu.trial with counts := some total } } }) ∧
      (s.ptr.standstill = true → s.cfs.speeds.aMin ≤ s.cfs.speeds.aCfg → s.cfs.speeds.aMin ≤ candidate →
        t.roc.aEff = offered ∧ t.fbu = s.fbu ∧ t.mvu.trial = { s.mvu.trial with
          counts := some total, status := .done, distance := some d, aMeas := some measured, aCand := some candidate,
          outcome := some .accepted, aEffAfter := some offered, endTime := some s.cfs.clock }) ∧
      (s.ptr.standstill = true → candidate < s.cfs.speeds.aMin →
        t.roc.aEff = s.roc.aEff ∧ t.fbu = (report .decelInsufficient none s).fbu ∧ t.mvu.trial = { s.mvu.trial with
          counts := some total, status := .done, distance := some d, aMeas := some measured, aCand := some candidate,
          outcome := some .insufficient, aEffAfter := some s.roc.aEff, endTime := some s.cfs.clock }) ∧
      ∀ cause,
        let ended : Trial := { s.mvu.trial with
          status := .aborted, abortCause := some cause, aEffAfter := some s.roc.aEff, endTime := some s.cfs.clock }
        abortTrial cause s = notify (.trialDone ended) { s with mvu := { s.mvu with trial := ended } }

/-! ### Station holds -/

/-- HOLD_SET places the station's entry for a reason at the level named, replacing its own in place; the levels are formed
afresh, LEVEL_CHANGED joins both ports' outboxes when the effective level has changed, as after every insertion, PARK
trips the wheel, a rise to STOP or PARK aborts a measuring trial, and the bring-home entry is judged; the reply reads the
state after all of it (log 31). A reason outside 1..15, a level that restricts nothing and a fifth entry are refused. -/
def Obligations.HoldSetPlacesStationEntry : Prop :=
  (∀ (id : HoldId) (v : Level) (s : State), v ≠ .none →
    let entry : HoldEntry := { id := id, level := v, time := s.cfs.clock }
    ∃ x : State, holdInsert id v s = bringHomeHandOver (handToWheel s.hlu.effective x) ∧
      x = { s with hlu := x.hlu, lkp := x.lkp } ∧
      (s.hold id = none → x.hlu.entries = s.hlu.entries ++ [entry]) ∧
      (∀ before old later, s.hlu.entries = before ++ old :: later → old.id = id → id ∉ before.map HoldEntry.id →
        x.hlu.entries = before ++ entry :: later) ∧
      x.hlu.effective = highestLevel x.hlu.entries ∧
      x.hlu.other = highestLevel (x.hlu.entries.filter fun e => e.id != .boarding) ∧
      ∀ p, x.port p =
        if x.hlu.effective = s.hlu.effective then s.port p
        else portNotice (.levelChanged x.hlu.effective s.hlu.effective id
          (if (s.hold id).isSome then .replacement else .insertion) (some v) x.hlu.entries.length s.cfs.clock) (s.port p)) ∧
  ∀ (p : Port) (tag reason level : Byte) (s : State), PortFree p s →
    let f := requestFrame tag (.holdSet reason level)
    let u := taken p f s
    let id := stationHold p reason.toNat
    (reason.toNat = 0 ∨ 15 < reason.toNat → exec (.holdSet p tag reason level) s = refuses p f .badField 1 s) ∧
    (1 ≤ reason.toNat → reason.toNat ≤ 15 →
      (level.toNat = 0 ∨ 5 < level.toNat → exec (.holdSet p tag reason level) s = refuses p f .badField 2 s) ∧
      ∀ v, Level.ofCode level.toNat = some v → v ≠ .none →
        (s.hold id = none → 4 ≤ s.stationCount p → exec (.holdSet p tag reason level) s = refuses p f .full 0 s) ∧
        ((s.hold id).isSome = true ∨ s.stationCount p < 4 →
          let t := holdInsert id v u
          exec (.holdSet p tag reason level) s =
            accepts p f (be1 reason.toNat ++ be1 level.toNat ++ be1 (t.holdPosition id) ++ be1 t.hlu.effective.code) t ∧
          t.hold id = some { id := id, level := v, time := s.cfs.clock } ∧
          t.hlu.effective = highestLevel t.hlu.entries ∧
          t.hlu.other = highestLevel (t.hlu.entries.filter fun e => e.id != .boarding) ∧
          (v = .park → s.hlu.effective ≠ .park → t.roc.rotation = .tripped) ∧
          (v = .stop ∨ v = .park → s.hlu.effective ≠ .stop → s.hlu.effective ≠ .park →
            s.mvu.trial.status = .measuring → t.mvu.trial = { s.mvu.trial with
              status := .aborted, abortCause := some .level, aEffAfter := some s.roc.aEff, endTime := some s.cfs.clock }) ∧
          bringsHome s t ∧
          (∀ i, i ≠ id → i ≠ .boarding → t.hold i = s.hold i) ∧ t.fbu = s.fbu ∧ t.cru = s.cru ∧ t.pim = s.pim ∧
          t.ptr = s.ptr ∧ t.wmn = s.wmn ∧ t.cfs = s.cfs))

/-- HOLD_RELEASE removes the station's own entry for a reason, LEVEL_CHANGED joining both ports' outboxes when the
effective level has changed, as after every removal, and the bring-home entry is judged, the reply reading the state after
it (log 31); a reason outside 1..15 and one for which it holds none are refused. -/
def Obligations.HoldReleaseRemovesOwnEntry : Prop :=
  (∀ (id : HoldId) (s : State),
    (s.hold id = none → holdRemove id s = s) ∧
    ((s.hold id).isSome = true →
      ∃ x : State, holdRemove id s = bringHomeHandOver (handToWheel s.hlu.effective x) ∧
        x = { s with hlu := x.hlu, lkp := x.lkp } ∧ x.hlu.entries = (s.hlu.entries.filter fun e => e.id != id) ∧
        x.hlu.effective = highestLevel x.hlu.entries ∧
        x.hlu.other = highestLevel (x.hlu.entries.filter fun e => e.id != .boarding) ∧
        ∀ p, x.port p =
          if x.hlu.effective = s.hlu.effective then s.port p
          else portNotice (.levelChanged x.hlu.effective s.hlu.effective id .removal none x.hlu.entries.length s.cfs.clock)
            (s.port p))) ∧
  ∀ (p : Port) (tag reason : Byte) (s : State), PortFree p s →
    let f := requestFrame tag (.holdRelease reason)
    let u := taken p f s
    let id := stationHold p reason.toNat
    let t := holdRemove id u
    (reason.toNat = 0 ∨ 15 < reason.toNat → exec (.holdRelease p tag reason) s = refuses p f .badField 1 s) ∧
    (1 ≤ reason.toNat → reason.toNat ≤ 15 →
      (s.hold id = none → exec (.holdRelease p tag reason) s = refuses p f .unknownId 0 s) ∧
      ((s.hold id).isSome = true →
        exec (.holdRelease p tag reason) s = accepts p f (be1 reason.toNat ++ be1 t.hlu.effective.code) t ∧
        t.hold id = none ∧ t.hlu.effective = highestLevel t.hlu.entries ∧
        t.hlu.other = highestLevel (t.hlu.entries.filter fun e => e.id != .boarding) ∧ bringsHome s t ∧
        (∀ i, i ≠ id → i ≠ .boarding → t.hold i = s.hold i) ∧ t.fbu = s.fbu ∧ t.cru = s.cru ∧ t.pim = s.pim ∧
        t.ptr = s.ptr ∧ t.wmn = s.wmn ∧ t.cfs = s.cfs))

/-! ### The group queue -/

/-- GROUP_ADD puts the record at the tail, its mass raised to 20 kg a person or the table's per-person mass when none is
given. An id of 0, a size outside 1..40, a mass above 4,000, a flag above 1, a party above the capacity or the load of a
cabin, an id already held and a full queue are refused in this order (the flag's place in it: log 24). -/
def Obligations.GroupAddJoinsTail : Prop :=
  ∀ (p : Port) (tag : Byte) (id : Half) (size : Byte) (mass : Half) (acc : Byte) (s : State), PortFree p s →
    let f := requestFrame tag (.groupAdd id size mass acc)
    let u := taken p f s
    let m := if mass.toNat = 0 then size.toNat * s.cfs.boarding.perPerson else max mass.toNat (size.toNat * 20)
    let g : Group :=
      { id := id.toNat, size := size.toNat
        declared := if mass.toNat = 0 then none else some (max mass.toNat (size.toNat * 20))
        source := if mass.toNat = 0 then .default else if mass.toNat < size.toNat * 20 then .raised else .declared
        accessible := acc == 1, accepted := s.cfs.clock }
    let sized := id.toNat ≠ 0 ∧ 1 ≤ size.toNat ∧ size.toNat ≤ 40
    let ranged := sized ∧ mass.toNat ≤ 4000 ∧ acc.toNat ≤ 1
    let fields := ranged ∧ size.toNat ≤ s.cfs.boarding.capacity ∧ m ≤ s.cfs.boarding.maxLoad
    let n := s.bsq.queue.length + 1
    (id.toNat = 0 → exec (.groupAdd p tag id size mass acc) s = refuses p f .badField 1 s) ∧
    (id.toNat ≠ 0 → size.toNat = 0 ∨ 40 < size.toNat →
      exec (.groupAdd p tag id size mass acc) s = refuses p f .badField 2 s) ∧
    (sized → 4000 < mass.toNat → exec (.groupAdd p tag id size mass acc) s = refuses p f .badField 3 s) ∧
    (sized → mass.toNat ≤ 4000 → 1 < acc.toNat →
      exec (.groupAdd p tag id size mass acc) s = refuses p f .badField 4 s) ∧
    (ranged → s.cfs.boarding.capacity < size.toNat →
      exec (.groupAdd p tag id size mass acc) s = refuses p f .badField 2 s) ∧
    (ranged → size.toNat ≤ s.cfs.boarding.capacity → s.cfs.boarding.maxLoad < m →
      exec (.groupAdd p tag id size mass acc) s = refuses p f .badField 3 s) ∧
    (fields → id.toNat ∈ s.heldIds → exec (.groupAdd p tag id size mass acc) s = refuses p f .duplicateId 0 s) ∧
    (fields → id.toNat ∉ s.heldIds → 32 ≤ s.bsq.queue.length →
      exec (.groupAdd p tag id size mass acc) s = refuses p f .full 0 s) ∧
    (fields → id.toNat ∉ s.heldIds → s.bsq.queue.length < 32 →
      let t : State := { u with bsq := { u.bsq with queue := u.bsq.queue ++ [g] } }
      exec (.groupAdd p tag id size mass acc) s =
        accepts p f (be2 id.toNat ++ be1 n ++ be2 m ++ be1 g.source.code)
          (if n = 16 then notify (.queueHalf 16 s.cfs.clock) t
            else if n = 32 then notify (.queueFull 32 s.cfs.clock) t else t))

/-- GROUP_WITHDRAW removes the record of an id from the queue alone, with QUEUE_EMPTY when none is left; an id of 0 and an
id that no record of the queue carries are refused. -/
def Obligations.GroupWithdrawRemovesRecord : Prop :=
  ∀ (p : Port) (tag : Byte) (id : Half) (s : State), PortFree p s →
    let f := requestFrame tag (.groupWithdraw id)
    let u := taken p f s
    (id.toNat = 0 → exec (.groupWithdraw p tag id) s = refuses p f .badField 1 s) ∧
    (id.toNat ≠ 0 → id.toNat ∉ s.bsq.queue.map Group.id →
      exec (.groupWithdraw p tag id) s = refuses p f .unknownId 0 s) ∧
    ∀ pre g post, s.bsq.queue = pre ++ g :: post → id.toNat ≠ 0 → g.id = id.toNat → id.toNat ∉ pre.map Group.id →
      let t : State := { u with bsq := { u.bsq with queue := pre ++ post } }
      exec (.groupWithdraw p tag id) s =
        accepts p f (be1 (pre.length + 1) ++ be1 (pre ++ post).length)
          (if pre ++ post = [] then notify (.queueEmpty 0 s.cfs.clock) t else t)

/-! ### Doors, factors, services -/

/-- DOOR_RETRY queues CLOSE again for a cabin in CLOSING or DOOR_HOLD with its DOOR entry in the list, and changes nothing
else; any other cabin is refused. -/
def Obligations.DoorRetryQueuesClose : Prop :=
  ∀ (p : Port) (tag cabin : Byte) (s : State), PortFree p s →
    let k := cabin.toNat
    let f := requestFrame tag (.doorRetry cabin)
    let u := taken p f s
    let ph := (s.cabin k).phase
    (k = 0 ∨ s.cfs.geometry.n < k → exec (.doorRetry p tag cabin) s = refuses p f .badField 1 s) ∧
    (1 ≤ k → k ≤ s.cfs.geometry.n →
      ((ph ≠ .closing ∧ ph ≠ .doorHold) ∨ s.hasDoor k = false →
        exec (.doorRetry p tag cabin) s = refuses p f .wrongState 0 s) ∧
      (ph = .closing ∨ ph = .doorHold → s.hasDoor k = true → exec (.doorRetry p tag cabin) s =
        accepts p f (be1 ph.code ++ be1 (s.node k).door.code ++ be1 (s.node k).state.code)
          (setNode k { s.node k with pending := some .close, taken := false } u)))

/-- FACTOR_CLEAR clears a group's factor flag; the entry then stands exactly while the group is in MISMATCH at a level
other than NONE. A group other than 0 and 1 is refused. -/
def Obligations.FactorClearJudgesEntry : Prop :=
  ∀ (p : Port) (tag group : Byte) (s : State), PortFree p s →
    let f := requestFrame tag (.factorClear group)
    (1 < group.toNat → exec (.factorClear p tag group) s = refuses p f .badField 1 s) ∧
    ∀ g, GroupId.ofNumber group.toNat = some g → ∃ t,
      exec (.factorClear p tag group) s =
        accepts p f (be1 (if (s.group g).isMatch then 1 else 2) ++ be1 0 ++ beBool (t.hold (.inputs g)).isSome) t ∧
      t.group g = { s.group g with factor := false } ∧ (∀ x, x ≠ g → t.group x = s.group x) ∧ t.fbu = s.fbu ∧
      ((t.hold (.inputs g)).isSome = true ↔ (s.group g).level ≠ .none ∧ (s.group g).isMatch = false) ∧
      t.ptr = s.ptr ∧ t.wmn = s.wmn ∧ t.cfs = s.cfs

/-- CABIN_SERVICE brings a cabin into service with its count cleared, or takes it out with its count kept, and answers
both; a cabin outside 1..N is refused. -/
def Obligations.CabinServiceSetsState : Prop :=
  ∀ (tag cabin : Byte) (s : State), PortFree .p1 s →
    let k := cabin.toNat
    (let f := requestFrame tag (.cabinService cabin 1);
      (k = 0 ∨ s.cfs.geometry.n < k → exec (.cabinServiceIn .p1 tag cabin) s = refuses .p1 f .badField 1 s) ∧
      (1 ≤ k → k ≤ s.cfs.geometry.n → k ≤ s.bsq.cabins.length → ∃ t,
        exec (.cabinServiceIn .p1 tag cabin) s = accepts .p1 f (be1 Service.inService.code ++ be1 0) t ∧
        t.cabin k = { s.cabin k with service := .inService, suspectCount := 0 } ∧
        (∀ j, j ≠ k → t.cabin j = s.cabin j) ∧ t.ptr = s.ptr ∧ t.hlu = s.hlu ∧ t.fbu = s.fbu)) ∧
    (let f := requestFrame tag (.cabinService cabin 2);
      (k = 0 ∨ s.cfs.geometry.n < k → exec (.cabinServiceOut .p1 tag cabin) s = refuses .p1 f .badField 1 s) ∧
      (1 ≤ k → k ≤ s.cfs.geometry.n → k ≤ s.bsq.cabins.length → ∃ t,
        exec (.cabinServiceOut .p1 tag cabin) s =
          accepts .p1 f (be1 Service.outOfService.code ++ be1 (s.cabin k).suspectCount) t ∧
        t.cabin k = { s.cabin k with service := .outOfService } ∧
        (∀ j, j ≠ k → t.cabin j = s.cabin j) ∧ t.ptr = s.ptr ∧ t.hlu = s.hlu ∧ t.fbu = s.fbu))

/-! ### Moves -/

/-- MOVE_SUBMIT places a move in slot A as ACTIVE, its MOVE entry at the end of its travel, or in slot B as PENDING while
slot A is occupied, and refuses it when both are; it is refused in CONFIG, UNREFERENCED, at PARK and during a trial step,
for a cabin or count outside 1..N, and an ADVANCE from the platform desk. The reply's slot code and 16-byte move record
are this model's (log 17). -/
def Obligations.MoveSubmitFillsSlot : Prop :=
  ∀ (p : Port) (tag n : Byte) (s : State), PortFree p s →
    ∀ (code : Byte) (kind : MoveKind) (command : Instr),
      (code, kind, command) ∈ [((1 : Byte), MoveKind.stopCabin n.toNat, Instr.moveSubmitStopCabin p tag n),
        (2, .advance n.toNat, .moveSubmitAdvance p tag n)] →
      let f := requestFrame tag (.moveSubmit code n)
      let u := taken p f s
      let counted : State := { u with mvu := { u.mvu with nextNumber := nextMoveNumber s.mvu.nextNumber } }
      let m : Move :=
        { number := s.mvu.nextNumber, kind := kind, origin := stationOrigin p, status := .pending,
          target := s.moveTarget kind, arrivalError := none, cause := none }
      let ready := s.cfs.device = .service ∧ s.ptr.referenced = true ∧ s.hlu.effective ≠ .park ∧ s.roc.trialStep = false
      (code = 2 → p = .p2 → exec command s = refuses p f .notPermitted 0 s) ∧
      (code = 1 ∨ p = .p1 →
        (n.toNat = 0 ∨ s.cfs.geometry.n < n.toNat → exec command s = refuses p f .badField 2 s) ∧
        (1 ≤ n.toNat → n.toNat ≤ s.cfs.geometry.n →
          (¬ready → exec command s = refuses p f .wrongState 0 s) ∧
          (ready → s.occupiedA = true → s.pendingB = true → exec command s = refuses p f .full 0 s) ∧
          (ready → s.occupiedA = true → s.pendingB = false → exec command s =
            accepts p f (be1 2 ++ moveBytes (some m)) (moveChanged .b (some m) counted)) ∧
          (ready → s.occupiedA = false → exec command s =
            accepts p f (be1 1 ++ moveBytes (some { m with status := .active }))
              (moveChanged .a (some { m with status := .active })
                (limitInsert .move (s.moveTarget kind) 0 false (s.moveRemaining kind) counted)))))

/-- MOVE_CANCEL ends the move of a number in slot A, removing its MOVE entry, or the one PENDING in slot B; MOVE_RESUME
ends an ARRIVED one as DONE. A number in another status is refused WRONG_STATE, one that neither slot holds UNKNOWN_ID. An
ended slot A takes the PENDING move of slot B. At an update with standstill an ACTIVE move within T_stop of its target has
arrived, one beyond it or stopped short by its own curve is ABORTED with cause POSITION, and any other stays ACTIVE with
an arrival error whose value no rule gives (a free value: log 50). The judgement comes after the trial's part of the
update, with the keeping of its drive reference word after it (logs 9, 35). -/
def Obligations.MoveCancelAndResumeEndMove : Prop :=
  (∀ (p : Port) (tag : Byte) (number : Half) (s : State), PortFree p s →
    let n := number.toNat
    (let f := requestFrame tag (.moveCancel number);
      let u := taken p f s;
      (∀ m, s.mvu.slotA = some m → m.number = n →
        (m.status = .active ∨ m.status = .arrived →
          exec (.moveCancel p tag number) s = accepts p f [] (finishA { m with status := .cancelled } u)) ∧
        (m.status ≠ .active → m.status ≠ .arrived →
          exec (.moveCancel p tag number) s = refuses p f .wrongState 0 s)) ∧
      ((∀ m, s.mvu.slotA = some m → m.number ≠ n) →
        (∀ m, s.mvu.slotB = some m → m.number = n → m.status = .pending →
          exec (.moveCancel p tag number) s =
            accepts p f [] (moveChanged .b (some { m with status := .cancelled }) u)) ∧
        (∀ m, s.mvu.slotB = some m → m.number = n → m.status ≠ .pending →
          exec (.moveCancel p tag number) s = refuses p f .wrongState 0 s) ∧
        ((∀ m, s.mvu.slotB = some m → m.number ≠ n) →
          exec (.moveCancel p tag number) s = refuses p f .unknownId 0 s))) ∧
    (let f := requestFrame tag (.moveResume number);
      let u := taken p f s;
      (∀ m, s.mvu.slotA = some m → m.number = n →
        (m.status = .arrived →
          exec (.moveResume p tag number) s = accepts p f [] (finishA { m with status := .done } u)) ∧
        (m.status ≠ .arrived → exec (.moveResume p tag number) s = refuses p f .wrongState 0 s)) ∧
      ((∀ m, s.mvu.slotA = some m → m.number ≠ n) →
        (∀ m, s.mvu.slotB = some m → m.number = n →
          exec (.moveResume p tag number) s = refuses p f .wrongState 0 s) ∧
        ((∀ m, s.mvu.slotB = some m → m.number ≠ n) →
          exec (.moveResume p tag number) s = refuses p f .unknownId 0 s)))) ∧
  (∀ (m : Move) (s : State),
    let t := finishA m s
    (∀ b, s.mvu.slotB = some b → b.status = .pending →
      let line := s.moveTarget b.kind
      t.mvu.slotA = some { b with status := .active, target := line } ∧ t.mvu.slotB = none ∧
      t.limit .move = some { origin := .move, line := line, limitSpeed := 0, margin := false,
                             remaining := s.moveRemaining b.kind, overrunReported := false }) ∧
    ((∀ b, s.mvu.slotB = some b → b.status ≠ .pending) →
      t.mvu.slotA = some m ∧ t.mvu.slotB = s.mvu.slotB ∧ t.limit .move = none)) ∧
  (∀ s : State, s.time.resetHeld = false →
    let w := updateWheel s
    exec .controlUpdate s = .next (keepWord (moveUpdate (trialUpdate (s.ptr.counter - s.ptr.sample).toInt
      (trackingCheck w.roc.trialStep (rotationStep w)))))) ∧
  (∀ s : State, s.mvu.slotA = none ∨ s.limit .move = none → moveUpdate s = s) ∧
  ∀ (m : Move) (e : LimitPoint) (s : State), s.mvu.slotA = some m → s.limit .move = some e →
    let r := e.remaining
    let tolerance : Int := s.cfs.boarding.tStop
    let stopped := s.roc.target = 0 ∧ s.roc.limiting = .curve .move
    (m.status ≠ .active ∨ s.ptr.standstill = false → moveUpdate s = s) ∧
    (m.status = .active → s.ptr.standstill = true →
      (-tolerance ≤ r → r ≤ tolerance →
        (∀ k, m.kind = .stopCabin k →
          let t := moveChanged .a (some { m with status := .arrived, arrivalError := some (-r) }) s
          ((s.cabin k).phase ≠ .unloading → moveUpdate s = t) ∧
          ((s.cabin k).phase = .unloading → moveUpdate s = changeToLoading k t)) ∧
        (∀ n, m.kind = .advance n → moveUpdate s = finishA { m with status := .done, arrivalError := some (-r) } s)) ∧
      (r < -tolerance ∨ (tolerance < r ∧ stopped) → moveUpdate s =
        finishA { m with status := .aborted, arrivalError := some (-r), cause := some .position } s) ∧
      (tolerance < r → ¬stopped →
        ∃ e : Int, moveUpdate s = setSlot .a (some { m with arrivalError := some e }) s))

/-! ### Wind profiles -/

/-- WIND_PROFILE_WRITE replaces a valid profile that is not in force and changes nothing else; the operative profile and
an unknown one are refused, and so is an invalid one, with the field of the first value out of range, or else of the first
value in a relation that fails (enter values taken by neighbouring levels: this model's choice, log 48). -/
def Obligations.ProfileWriteReplacesOther : Prop :=
  ∀ (tag profile : Byte) (values : List Half) (s : State), PortFree .p1 s → values.length = 17 →
    let f := requestFrame tag (.windProfileWrite profile values)
    let u := taken .p1 f s
    let vs := values.map BitVec.toNat
    (1 < profile.toNat → exec (.windProfileWrite .p1 tag profile values) s = refuses .p1 f .badField 1 s) ∧
    ∀ id, ProfileId.ofNumber profile.toNat = some id →
      (s.wmn.operative = id → exec (.windProfileWrite .p1 tag profile values) s = refuses .p1 f .wrongState 0 s) ∧
      (s.wmn.operative ≠ id →
        (∀ i, profileRangeFailure 0 vs = some i →
          exec (.windProfileWrite .p1 tag profile values) s = refuses .p1 f .badField (i + 2) s) ∧
        (profileRangeFailure 0 vs = none → ∀ i, profileRelationFailure vs = some i →
          exec (.windProfileWrite .p1 tag profile values) s = refuses .p1 f .badField (i + 2) s) ∧
        (profileRangeFailure 0 vs = none → profileRelationFailure vs = none →
          exec (.windProfileWrite .p1 tag profile values) s =
            accepts .p1 f (be1 profile.toNat) { u with wmn := u.wmn.putProfile id (profileOf vs) }))

/-- WIND_PROFILE_SELECT puts a profile in force: the wind level becomes the greatest of itself, the level that the latest
governing gust and mean warrant under the profile, and the floor level, with its hold entry when it has risen, and the
calm timer is set to 0 and runs above CALM. Selecting the operative one changes nothing, and an unknown one is
refused. -/
def Obligations.ProfileSelectTakesForce : Prop :=
  ∀ (tag profile : Byte) (s : State), PortFree .p1 s →
    let f := requestFrame tag (.windProfileSelect profile)
    let u := taken .p1 f s
    (1 < profile.toNat → exec (.windProfileSelect .p1 tag profile) s = refuses .p1 f .badField 1 s) ∧
    ∀ id, ProfileId.ofNumber profile.toNat = some id →
      let warranted := (s.wmn.profile id).warranted s.wmn.gust s.wmn.mean
      (s.wmn.operative = id → exec (.windProfileSelect .p1 tag profile) s =
        accepts .p1 f (be1 profile.toNat ++ be1 s.wmn.level.code) u) ∧
      (s.wmn.operative ≠ id → ∃ t, exec (.windProfileSelect .p1 tag profile) s =
          accepts .p1 f (be1 profile.toNat ++ be1 t.wmn.level.code) t ∧
        t.wmn.level.code = max (max s.wmn.level.code warranted.code) s.wmn.floorLevel.code ∧
        t.wmn = { s.wmn with
          operative := id, level := t.wmn.level, warranted := warranted, calm := 0, calmRuns := decide (t.wmn.level ≠ .calm) } ∧
        (t.wmn.level = s.wmn.level → t = { u with wmn := t.wmn }) ∧
        (t.wmn.level ≠ s.wmn.level →
          t.hold .wind = some { id := .wind, level := t.wmn.level.hold, time := s.cfs.clock }) ∧
        (∀ i, i ≠ .wind → i ≠ .boarding → t.hold i = s.hold i) ∧ t.ptr = s.ptr ∧ t.cfs = s.cfs)

/-! ### Fault bank requests -/

/-- FAULT_ACK clears a pending bank and removes its FAULT entry, its record and counter kept; a bank not pending is left
as it is, and an unknown bank is refused. -/
def Obligations.FaultAckReleasesBank : Prop :=
  ∀ (tag bank : Byte) (s : State), PortFree .p1 s →
    let f := requestFrame tag (.faultAck bank)
    let u := taken .p1 f s
    (bank.toNat = 0 ∨ 5 < bank.toNat → exec (.faultAck .p1 tag bank) s = refuses .p1 f .badField 1 s) ∧
    ∀ b, BankId.ofNumber bank.toNat = some b →
      ((s.bank b).hold = none →
        exec (.faultAck .p1 tag bank) s = accepts .p1 f (be1 0 ++ be1 s.hlu.effective.code) u) ∧
      ((s.bank b).hold.isSome = true → ∃ t,
        exec (.faultAck .p1 tag bank) s = accepts .p1 f (be1 0 ++ be1 t.hlu.effective.code) t ∧
        t.bank b = { s.bank b with hold := none } ∧ (∀ x, x ≠ b → t.bank x = s.bank x) ∧
        t.hold (.fault b) = none ∧ (∀ i, i ≠ .fault b → i ≠ .boarding → t.hold i = s.hold i) ∧
        t.pim = s.pim ∧ t.cru = s.cru ∧ t.ptr = s.ptr ∧ t.wmn = s.wmn ∧ t.cfs = s.cfs)

/-- FAULT_CLEAR empties the record and the overflow flag of a bank that is not pending and changes nothing else; a pending
bank and an unknown one are refused. -/
def Obligations.FaultClearEmptiesRecord : Prop :=
  ∀ (tag bank : Byte) (s : State), PortFree .p1 s →
    let f := requestFrame tag (.faultClear bank)
    let u := taken .p1 f s
    (bank.toNat = 0 ∨ 5 < bank.toNat → exec (.faultClear .p1 tag bank) s = refuses .p1 f .badField 1 s) ∧
    ∀ b, BankId.ofNumber bank.toNat = some b →
      ((s.bank b).hold.isSome = true → exec (.faultClear .p1 tag bank) s = refuses .p1 f .wrongState 0 s) ∧
      ((s.bank b).hold = none → exec (.faultClear .p1 tag bank) s =
        accepts .p1 f (be1 bank.toNat) (setBank b { s.bank b with record := none, overflow := false } u))

/-- COUNTER_CLEAR sets a bank's counter to 0 and clears its threshold-reached flag, pending or not, and changes nothing
else; an unknown bank is refused. -/
def Obligations.CounterClearZeroesCounter : Prop :=
  ∀ (tag bank : Byte) (s : State), PortFree .p1 s →
    let f := requestFrame tag (.counterClear bank)
    let u := taken .p1 f s
    (bank.toNat = 0 ∨ 5 < bank.toNat → exec (.counterClear .p1 tag bank) s = refuses .p1 f .badField 1 s) ∧
    ∀ b, BankId.ofNumber bank.toNat = some b → exec (.counterClear .p1 tag bank) s =
      accepts .p1 f (be1 bank.toNat) (setBank b { s.bank b with counter := 0, thresholdReached := false } u)

/-- FAULT_MASK sets or clears the bit of a SIGNAL code in its bank's mask and changes nothing else, and answers the mask
in four bytes (this model's choice: log 17); an unknown bank, a code of another bank and a code of CABIN or WHEEL scope
are refused. -/
def Obligations.FaultMaskSetsCodeBit : Prop :=
  ∀ (tag bank code : Byte) (s : State), PortFree .p1 s →
    ∀ (on : Byte) (command : Instr),
      (on, command) ∈ [((1 : Byte), Instr.faultMaskSet .p1 tag bank code), (0, .faultMaskClear .p1 tag bank code)] →
      let f := requestFrame tag (.faultMask bank code on)
      let u := taken .p1 f s
      (bank.toNat = 0 ∨ 5 < bank.toNat → exec command s = refuses .p1 f .badField 1 s) ∧
      ∀ b, BankId.ofNumber bank.toNat = some b →
        (FaultCode.ofNumber code.toNat = none → exec command s = refuses .p1 f .badField 2 s) ∧
        ∀ c, FaultCode.ofNumber code.toNat = some c →
          (c.bank ≠ b ∨ c.scope ≠ .signal → exec command s = refuses .p1 f .badField 2 s) ∧
          (c.bank = b → c.scope = .signal → ∃ m : BitVec 32,
            exec command s = accepts .p1 f (be1 bank.toNat ++ be4 m.toNat) (setBank b { s.bank b with mask := m } u) ∧
            ∀ i < 32, m.getLsbD i = if i + 1 = code.toNat then on == 1 else (s.bank b).mask.getLsbD i)

end
end

