-- ==== Sys2Proof/Laws/State.lean ====
section
/-! SUPPORT. One lemma per field per update: what each named update of Machine/Ops.lean leaves as it was, and what it puts in
place. All hold by unfolding, so that no later proof unfolds a record update. -/

namespace Sys2Proof.Machine

variable (s : State)

/-! ### The blocks an update leaves alone -/

@[simp] theorem setCabin_ptr (k : Nat) (c : Cabin) : (setCabin k c s).ptr = s.ptr := rfl
@[simp] theorem setCabin_roc (k : Nat) (c : Cabin) : (setCabin k c s).roc = s.roc := rfl
@[simp] theorem setCabin_mvu (k : Nat) (c : Cabin) : (setCabin k c s).mvu = s.mvu := rfl
@[simp] theorem setCabin_cru (k : Nat) (c : Cabin) : (setCabin k c s).cru = s.cru := rfl
@[simp] theorem setCabin_wmn (k : Nat) (c : Cabin) : (setCabin k c s).wmn = s.wmn := rfl
@[simp] theorem setCabin_hlu (k : Nat) (c : Cabin) : (setCabin k c s).hlu = s.hlu := rfl
@[simp] theorem setCabin_pim (k : Nat) (c : Cabin) : (setCabin k c s).pim = s.pim := rfl
@[simp] theorem setCabin_fbu (k : Nat) (c : Cabin) : (setCabin k c s).fbu = s.fbu := rfl
@[simp] theorem setCabin_lkp (k : Nat) (c : Cabin) : (setCabin k c s).lkp = s.lkp := rfl
@[simp] theorem setCabin_cfs (k : Nat) (c : Cabin) : (setCabin k c s).cfs = s.cfs := rfl
@[simp] theorem setCabin_time (k : Nat) (c : Cabin) : (setCabin k c s).time = s.time := rfl
@[simp] theorem setCabin_pending (k : Nat) (c : Cabin) : (setCabin k c s).pending = s.pending := rfl

@[simp] theorem keepWord_ptr : (keepWord s).ptr = s.ptr := rfl
@[simp] theorem keepWord_mvu : (keepWord s).mvu = s.mvu := rfl
@[simp] theorem keepWord_cru : (keepWord s).cru = s.cru := rfl
@[simp] theorem keepWord_bsq : (keepWord s).bsq = s.bsq := rfl
@[simp] theorem keepWord_wmn : (keepWord s).wmn = s.wmn := rfl
@[simp] theorem keepWord_hlu : (keepWord s).hlu = s.hlu := rfl
@[simp] theorem keepWord_pim : (keepWord s).pim = s.pim := rfl
@[simp] theorem keepWord_fbu : (keepWord s).fbu = s.fbu := rfl
@[simp] theorem keepWord_lkp : (keepWord s).lkp = s.lkp := rfl
@[simp] theorem keepWord_cfs : (keepWord s).cfs = s.cfs := rfl
@[simp] theorem keepWord_time : (keepWord s).time = s.time := rfl
@[simp] theorem keepWord_pending : (keepWord s).pending = s.pending := rfl
@[simp] theorem keepWord_roc : (keepWord s).roc = { s.roc with updateRef := s.roc.driveRef } := rfl

@[simp] theorem setNode_ptr (k : Nat) (n : Node) : (setNode k n s).ptr = s.ptr := rfl
@[simp] theorem setNode_roc (k : Nat) (n : Node) : (setNode k n s).roc = s.roc := rfl
@[simp] theorem setNode_mvu (k : Nat) (n : Node) : (setNode k n s).mvu = s.mvu := rfl
@[simp] theorem setNode_bsq (k : Nat) (n : Node) : (setNode k n s).bsq = s.bsq := rfl
@[simp] theorem setNode_wmn (k : Nat) (n : Node) : (setNode k n s).wmn = s.wmn := rfl
@[simp] theorem setNode_hlu (k : Nat) (n : Node) : (setNode k n s).hlu = s.hlu := rfl
@[simp] theorem setNode_pim (k : Nat) (n : Node) : (setNode k n s).pim = s.pim := rfl
@[simp] theorem setNode_fbu (k : Nat) (n : Node) : (setNode k n s).fbu = s.fbu := rfl
@[simp] theorem setNode_lkp (k : Nat) (n : Node) : (setNode k n s).lkp = s.lkp := rfl
@[simp] theorem setNode_cfs (k : Nat) (n : Node) : (setNode k n s).cfs = s.cfs := rfl
@[simp] theorem setNode_time (k : Nat) (n : Node) : (setNode k n s).time = s.time := rfl
@[simp] theorem setNode_pending (k : Nat) (n : Node) : (setNode k n s).pending = s.pending := rfl

@[simp] theorem setPassRecord_roc (k : Nat) (r : Option PlatformLine) : (setPassRecord k r s).roc = s.roc := rfl
@[simp] theorem setPassRecord_mvu (k : Nat) (r : Option PlatformLine) : (setPassRecord k r s).mvu = s.mvu := rfl
@[simp] theorem setPassRecord_cru (k : Nat) (r : Option PlatformLine) : (setPassRecord k r s).cru = s.cru := rfl
@[simp] theorem setPassRecord_bsq (k : Nat) (r : Option PlatformLine) : (setPassRecord k r s).bsq = s.bsq := rfl
@[simp] theorem setPassRecord_wmn (k : Nat) (r : Option PlatformLine) : (setPassRecord k r s).wmn = s.wmn := rfl
@[simp] theorem setPassRecord_hlu (k : Nat) (r : Option PlatformLine) : (setPassRecord k r s).hlu = s.hlu := rfl
@[simp] theorem setPassRecord_pim (k : Nat) (r : Option PlatformLine) : (setPassRecord k r s).pim = s.pim := rfl
@[simp] theorem setPassRecord_fbu (k : Nat) (r : Option PlatformLine) : (setPassRecord k r s).fbu = s.fbu := rfl
@[simp] theorem setPassRecord_lkp (k : Nat) (r : Option PlatformLine) : (setPassRecord k r s).lkp = s.lkp := rfl
@[simp] theorem setPassRecord_cfs (k : Nat) (r : Option PlatformLine) : (setPassRecord k r s).cfs = s.cfs := rfl
@[simp] theorem setPassRecord_time (k : Nat) (r : Option PlatformLine) : (setPassRecord k r s).time = s.time := rfl
@[simp] theorem setPassRecord_pending (k : Nat) (r : Option PlatformLine) :
    (setPassRecord k r s).pending = s.pending := rfl

@[simp] theorem setPort_ptr (p : Port) (q : PortState) : (setPort p q s).ptr = s.ptr := rfl
@[simp] theorem setPort_roc (p : Port) (q : PortState) : (setPort p q s).roc = s.roc := rfl
@[simp] theorem setPort_mvu (p : Port) (q : PortState) : (setPort p q s).mvu = s.mvu := rfl
@[simp] theorem setPort_cru (p : Port) (q : PortState) : (setPort p q s).cru = s.cru := rfl
@[simp] theorem setPort_bsq (p : Port) (q : PortState) : (setPort p q s).bsq = s.bsq := rfl
@[simp] theorem setPort_wmn (p : Port) (q : PortState) : (setPort p q s).wmn = s.wmn := rfl
@[simp] theorem setPort_hlu (p : Port) (q : PortState) : (setPort p q s).hlu = s.hlu := rfl
@[simp] theorem setPort_pim (p : Port) (q : PortState) : (setPort p q s).pim = s.pim := rfl
@[simp] theorem setPort_fbu (p : Port) (q : PortState) : (setPort p q s).fbu = s.fbu := rfl
@[simp] theorem setPort_cfs (p : Port) (q : PortState) : (setPort p q s).cfs = s.cfs := rfl
@[simp] theorem setPort_time (p : Port) (q : PortState) : (setPort p q s).time = s.time := rfl
@[simp] theorem setPort_pending (p : Port) (q : PortState) : (setPort p q s).pending = s.pending := rfl

@[simp] theorem setBank_ptr (b : BankId) (v : Bank) : (setBank b v s).ptr = s.ptr := rfl
@[simp] theorem setBank_roc (b : BankId) (v : Bank) : (setBank b v s).roc = s.roc := rfl
@[simp] theorem setBank_mvu (b : BankId) (v : Bank) : (setBank b v s).mvu = s.mvu := rfl
@[simp] theorem setBank_cru (b : BankId) (v : Bank) : (setBank b v s).cru = s.cru := rfl
@[simp] theorem setBank_bsq (b : BankId) (v : Bank) : (setBank b v s).bsq = s.bsq := rfl
@[simp] theorem setBank_wmn (b : BankId) (v : Bank) : (setBank b v s).wmn = s.wmn := rfl
@[simp] theorem setBank_hlu (b : BankId) (v : Bank) : (setBank b v s).hlu = s.hlu := rfl
@[simp] theorem setBank_pim (b : BankId) (v : Bank) : (setBank b v s).pim = s.pim := rfl
@[simp] theorem setBank_lkp (b : BankId) (v : Bank) : (setBank b v s).lkp = s.lkp := rfl
@[simp] theorem setBank_cfs (b : BankId) (v : Bank) : (setBank b v s).cfs = s.cfs := rfl
@[simp] theorem setBank_time (b : BankId) (v : Bank) : (setBank b v s).time = s.time := rfl
@[simp] theorem setBank_pending (b : BankId) (v : Bank) : (setBank b v s).pending = s.pending := rfl

@[simp] theorem setChannel_ptr (ch : Channel) (v : ChannelRec) : (setChannel ch v s).ptr = s.ptr := rfl
@[simp] theorem setChannel_roc (ch : Channel) (v : ChannelRec) : (setChannel ch v s).roc = s.roc := rfl
@[simp] theorem setChannel_mvu (ch : Channel) (v : ChannelRec) : (setChannel ch v s).mvu = s.mvu := rfl
@[simp] theorem setChannel_cru (ch : Channel) (v : ChannelRec) : (setChannel ch v s).cru = s.cru := rfl
@[simp] theorem setChannel_bsq (ch : Channel) (v : ChannelRec) : (setChannel ch v s).bsq = s.bsq := rfl
@[simp] theorem setChannel_hlu (ch : Channel) (v : ChannelRec) : (setChannel ch v s).hlu = s.hlu := rfl
@[simp] theorem setChannel_pim (ch : Channel) (v : ChannelRec) : (setChannel ch v s).pim = s.pim := rfl
@[simp] theorem setChannel_fbu (ch : Channel) (v : ChannelRec) : (setChannel ch v s).fbu = s.fbu := rfl
@[simp] theorem setChannel_lkp (ch : Channel) (v : ChannelRec) : (setChannel ch v s).lkp = s.lkp := rfl
@[simp] theorem setChannel_cfs (ch : Channel) (v : ChannelRec) : (setChannel ch v s).cfs = s.cfs := rfl
@[simp] theorem setChannel_time (ch : Channel) (v : ChannelRec) : (setChannel ch v s).time = s.time := rfl
@[simp] theorem setChannel_pending (ch : Channel) (v : ChannelRec) : (setChannel ch v s).pending = s.pending := rfl

@[simp] theorem setGroup_ptr (g : GroupId) (v : InputGroup) : (setGroup g v s).ptr = s.ptr := rfl
@[simp] theorem setGroup_roc (g : GroupId) (v : InputGroup) : (setGroup g v s).roc = s.roc := rfl
@[simp] theorem setGroup_mvu (g : GroupId) (v : InputGroup) : (setGroup g v s).mvu = s.mvu := rfl
@[simp] theorem setGroup_cru (g : GroupId) (v : InputGroup) : (setGroup g v s).cru = s.cru := rfl
@[simp] theorem setGroup_bsq (g : GroupId) (v : InputGroup) : (setGroup g v s).bsq = s.bsq := rfl
@[simp] theorem setGroup_wmn (g : GroupId) (v : InputGroup) : (setGroup g v s).wmn = s.wmn := rfl
@[simp] theorem setGroup_hlu (g : GroupId) (v : InputGroup) : (setGroup g v s).hlu = s.hlu := rfl
@[simp] theorem setGroup_fbu (g : GroupId) (v : InputGroup) : (setGroup g v s).fbu = s.fbu := rfl
@[simp] theorem setGroup_lkp (g : GroupId) (v : InputGroup) : (setGroup g v s).lkp = s.lkp := rfl
@[simp] theorem setGroup_cfs (g : GroupId) (v : InputGroup) : (setGroup g v s).cfs = s.cfs := rfl
@[simp] theorem setGroup_time (g : GroupId) (v : InputGroup) : (setGroup g v s).time = s.time := rfl
@[simp] theorem setGroup_pending (g : GroupId) (v : InputGroup) : (setGroup g v s).pending = s.pending := rfl

@[simp] theorem setInput_ptr (i : Nat) (v : Input) : (setInput i v s).ptr = s.ptr := rfl
@[simp] theorem setInput_roc (i : Nat) (v : Input) : (setInput i v s).roc = s.roc := rfl
@[simp] theorem setInput_mvu (i : Nat) (v : Input) : (setInput i v s).mvu = s.mvu := rfl
@[simp] theorem setInput_cru (i : Nat) (v : Input) : (setInput i v s).cru = s.cru := rfl
@[simp] theorem setInput_bsq (i : Nat) (v : Input) : (setInput i v s).bsq = s.bsq := rfl
@[simp] theorem setInput_wmn (i : Nat) (v : Input) : (setInput i v s).wmn = s.wmn := rfl
@[simp] theorem setInput_hlu (i : Nat) (v : Input) : (setInput i v s).hlu = s.hlu := rfl
@[simp] theorem setInput_fbu (i : Nat) (v : Input) : (setInput i v s).fbu = s.fbu := rfl
@[simp] theorem setInput_lkp (i : Nat) (v : Input) : (setInput i v s).lkp = s.lkp := rfl
@[simp] theorem setInput_cfs (i : Nat) (v : Input) : (setInput i v s).cfs = s.cfs := rfl
@[simp] theorem setInput_time (i : Nat) (v : Input) : (setInput i v s).time = s.time := rfl
@[simp] theorem setInput_pending (i : Nat) (v : Input) : (setInput i v s).pending = s.pending := rfl

@[simp] theorem setSlot_ptr (sl : Slot) (m : Option Move) : (setSlot sl m s).ptr = s.ptr := rfl
@[simp] theorem setSlot_roc (sl : Slot) (m : Option Move) : (setSlot sl m s).roc = s.roc := rfl
@[simp] theorem setSlot_cru (sl : Slot) (m : Option Move) : (setSlot sl m s).cru = s.cru := rfl
@[simp] theorem setSlot_bsq (sl : Slot) (m : Option Move) : (setSlot sl m s).bsq = s.bsq := rfl
@[simp] theorem setSlot_wmn (sl : Slot) (m : Option Move) : (setSlot sl m s).wmn = s.wmn := rfl
@[simp] theorem setSlot_hlu (sl : Slot) (m : Option Move) : (setSlot sl m s).hlu = s.hlu := rfl
@[simp] theorem setSlot_pim (sl : Slot) (m : Option Move) : (setSlot sl m s).pim = s.pim := rfl
@[simp] theorem setSlot_fbu (sl : Slot) (m : Option Move) : (setSlot sl m s).fbu = s.fbu := rfl
@[simp] theorem setSlot_lkp (sl : Slot) (m : Option Move) : (setSlot sl m s).lkp = s.lkp := rfl
@[simp] theorem setSlot_cfs (sl : Slot) (m : Option Move) : (setSlot sl m s).cfs = s.cfs := rfl
@[simp] theorem setSlot_time (sl : Slot) (m : Option Move) : (setSlot sl m s).time = s.time := rfl
@[simp] theorem setSlot_pending (sl : Slot) (m : Option Move) : (setSlot sl m s).pending = s.pending := rfl

@[simp] theorem notify_ptr (n : Notice) : (notify n s).ptr = s.ptr := rfl
@[simp] theorem notify_roc (n : Notice) : (notify n s).roc = s.roc := rfl
@[simp] theorem notify_mvu (n : Notice) : (notify n s).mvu = s.mvu := rfl
@[simp] theorem notify_cru (n : Notice) : (notify n s).cru = s.cru := rfl
@[simp] theorem notify_bsq (n : Notice) : (notify n s).bsq = s.bsq := rfl
@[simp] theorem notify_wmn (n : Notice) : (notify n s).wmn = s.wmn := rfl
@[simp] theorem notify_hlu (n : Notice) : (notify n s).hlu = s.hlu := rfl
@[simp] theorem notify_pim (n : Notice) : (notify n s).pim = s.pim := rfl
@[simp] theorem notify_fbu (n : Notice) : (notify n s).fbu = s.fbu := rfl
@[simp] theorem notify_cfs (n : Notice) : (notify n s).cfs = s.cfs := rfl
@[simp] theorem notify_time (n : Notice) : (notify n s).time = s.time := rfl
@[simp] theorem notify_pending (n : Notice) : (notify n s).pending = s.pending := rfl

/-! ### What stays inside the block an update writes -/

@[simp] theorem setCabin_bsq_slowCrossed (k : Nat) (c : Cabin) :
    (setCabin k c s).bsq.slowCrossed = s.bsq.slowCrossed := rfl
@[simp] theorem setCabin_bsq_slowTarget (k : Nat) (c : Cabin) :
    (setCabin k c s).bsq.slowTarget = s.bsq.slowTarget := rfl
@[simp] theorem setCabin_bsq_boardingMove (k : Nat) (c : Cabin) :
    (setCabin k c s).bsq.boardingMove = s.bsq.boardingMove := rfl
@[simp] theorem setCabin_bsq_gate (k : Nat) (c : Cabin) : (setCabin k c s).bsq.gate = s.bsq.gate := rfl
@[simp] theorem setCabin_bsq_queue (k : Nat) (c : Cabin) : (setCabin k c s).bsq.queue = s.bsq.queue := rfl
@[simp] theorem setCabin_bsq_angles (k : Nat) (c : Cabin) : (setCabin k c s).bsq.angles = s.bsq.angles := rfl
@[simp] theorem setCabin_bsq_sumX (k : Nat) (c : Cabin) : (setCabin k c s).bsq.sumX = s.bsq.sumX := rfl
@[simp] theorem setCabin_bsq_sumY (k : Nat) (c : Cabin) : (setCabin k c s).bsq.sumY = s.bsq.sumY := rfl
@[simp] theorem setCabin_bsq_sumQ (k : Nat) (c : Cabin) : (setCabin k c s).bsq.sumQ = s.bsq.sumQ := rfl
@[simp] theorem setNode_cru_running (k : Nat) (n : Node) : (setNode k n s).cru.running = s.cru.running := rfl
@[simp] theorem setNode_cru_flight (k : Nat) (n : Node) : (setNode k n s).cru.flight = s.cru.flight := rfl
@[simp] theorem setNode_cru_windowPointer (k : Nat) (n : Node) :
    (setNode k n s).cru.windowPointer = s.cru.windowPointer := rfl
@[simp] theorem setNode_cru_roundPointer (k : Nat) (n : Node) :
    (setNode k n s).cru.roundPointer = s.cru.roundPointer := rfl
@[simp] theorem setNode_cru_nextSlot (k : Nat) (n : Node) : (setNode k n s).cru.nextSlot = s.cru.nextSlot := rfl
@[simp] theorem setPassRecord_ptr_counter (k : Nat) (r : Option PlatformLine) :
    (setPassRecord k r s).ptr.counter = s.ptr.counter := rfl
@[simp] theorem setPassRecord_ptr_sample (k : Nat) (r : Option PlatformLine) :
    (setPassRecord k r s).ptr.sample = s.ptr.sample := rfl
@[simp] theorem setPassRecord_ptr_angle (k : Nat) (r : Option PlatformLine) :
    (setPassRecord k r s).ptr.angle = s.ptr.angle := rfl
@[simp] theorem setPassRecord_ptr_referenced (k : Nat) (r : Option PlatformLine) :
    (setPassRecord k r s).ptr.referenced = s.ptr.referenced := rfl
@[simp] theorem setPassRecord_ptr_latch (k : Nat) (r : Option PlatformLine) :
    (setPassRecord k r s).ptr.latch = s.ptr.latch := rfl
@[simp] theorem setPassRecord_ptr_history (k : Nat) (r : Option PlatformLine) :
    (setPassRecord k r s).ptr.history = s.ptr.history := rfl
@[simp] theorem setPassRecord_ptr_zeroRun (k : Nat) (r : Option PlatformLine) :
    (setPassRecord k r s).ptr.zeroRun = s.ptr.zeroRun := rfl
@[simp] theorem setPassRecord_ptr_standstill (k : Nat) (r : Option PlatformLine) :
    (setPassRecord k r s).ptr.standstill = s.ptr.standstill := rfl
@[simp] theorem setPassRecord_ptr_speed (k : Nat) (r : Option PlatformLine) :
    (setPassRecord k r s).ptr.speed = s.ptr.speed := rfl
@[simp] theorem setSlot_mvu_nextNumber (sl : Slot) (m : Option Move) :
    (setSlot sl m s).mvu.nextNumber = s.mvu.nextNumber := by cases sl <;> rfl
@[simp] theorem setSlot_mvu_trial (sl : Slot) (m : Option Move) :
    (setSlot sl m s).mvu.trial = s.mvu.trial := by cases sl <;> rfl
@[simp] theorem setChannel_wmn_profile0 (ch : Channel) (v : ChannelRec) :
    (setChannel ch v s).wmn.profile0 = s.wmn.profile0 := rfl
@[simp] theorem setChannel_wmn_profile1 (ch : Channel) (v : ChannelRec) :
    (setChannel ch v s).wmn.profile1 = s.wmn.profile1 := rfl
@[simp] theorem setChannel_wmn_operative (ch : Channel) (v : ChannelRec) :
    (setChannel ch v s).wmn.operative = s.wmn.operative := rfl
@[simp] theorem setChannel_wmn_level (ch : Channel) (v : ChannelRec) :
    (setChannel ch v s).wmn.level = s.wmn.level := rfl
@[simp] theorem setChannel_wmn_calm (ch : Channel) (v : ChannelRec) : (setChannel ch v s).wmn.calm = s.wmn.calm := rfl
@[simp] theorem setChannel_wmn_calmRuns (ch : Channel) (v : ChannelRec) :
    (setChannel ch v s).wmn.calmRuns = s.wmn.calmRuns := rfl
@[simp] theorem setChannel_wmn_warmUp (ch : Channel) (v : ChannelRec) :
    (setChannel ch v s).wmn.warmUp = s.wmn.warmUp := rfl
@[simp] theorem setChannel_wmn_noValid (ch : Channel) (v : ChannelRec) :
    (setChannel ch v s).wmn.noValid = s.wmn.noValid := rfl
@[simp] theorem setChannel_wmn_gust (ch : Channel) (v : ChannelRec) : (setChannel ch v s).wmn.gust = s.wmn.gust := rfl
@[simp] theorem setChannel_wmn_mean (ch : Channel) (v : ChannelRec) : (setChannel ch v s).wmn.mean = s.wmn.mean := rfl
@[simp] theorem setChannel_wmn_warranted (ch : Channel) (v : ChannelRec) :
    (setChannel ch v s).wmn.warranted = s.wmn.warranted := rfl
@[simp] theorem setChannel_wmn_floorLevel (ch : Channel) (v : ChannelRec) :
    (setChannel ch v s).wmn.floorLevel = s.wmn.floorLevel := rfl
@[simp] theorem setChannel_wmn_floorConds (ch : Channel) (v : ChannelRec) :
    (setChannel ch v s).wmn.floorConds = s.wmn.floorConds := rfl

/-! ### Reads through the updates -/

@[simp] theorem setCabin_node (k : Nat) (c : Cabin) (j : Nat) : (setCabin k c s).node j = s.node j := rfl
@[simp] theorem setCabin_passRecord (k : Nat) (c : Cabin) (j : Nat) :
    (setCabin k c s).passRecord j = s.passRecord j := rfl
@[simp] theorem setCabin_port (k : Nat) (c : Cabin) (x : Port) :
    (setCabin k c s).port x = s.port x := by cases x <;> rfl
@[simp] theorem setCabin_bank (k : Nat) (c : Cabin) (x : BankId) :
    (setCabin k c s).bank x = s.bank x := by cases x <;> rfl
@[simp] theorem setCabin_channel (k : Nat) (c : Cabin) (x : Channel) :
    (setCabin k c s).channel x = s.channel x := by cases x <;> rfl
@[simp] theorem setCabin_group (k : Nat) (c : Cabin) (x : GroupId) :
    (setCabin k c s).group x = s.group x := by cases x <;> rfl
@[simp] theorem setCabin_input (k : Nat) (c : Cabin) (j : Nat) : (setCabin k c s).input j = s.input j := rfl
@[simp] theorem setCabin_slot (k : Nat) (c : Cabin) (x : Slot) :
    (setCabin k c s).slot x = s.slot x := by cases x <;> rfl
@[simp] theorem setCabin_hold (k : Nat) (c : Cabin) (x : HoldId) : (setCabin k c s).hold x = s.hold x := rfl
@[simp] theorem setCabin_limit (k : Nat) (c : Cabin) (x : LimitOrigin) : (setCabin k c s).limit x = s.limit x := rfl
@[simp] theorem setNode_cabin (k : Nat) (n : Node) (j : Nat) : (setNode k n s).cabin j = s.cabin j := rfl
@[simp] theorem setNode_passRecord (k : Nat) (n : Node) (j : Nat) :
    (setNode k n s).passRecord j = s.passRecord j := rfl
@[simp] theorem setNode_port (k : Nat) (n : Node) (x : Port) : (setNode k n s).port x = s.port x := by cases x <;> rfl
@[simp] theorem setNode_bank (k : Nat) (n : Node) (x : BankId) :
    (setNode k n s).bank x = s.bank x := by cases x <;> rfl
@[simp] theorem setNode_channel (k : Nat) (n : Node) (x : Channel) :
    (setNode k n s).channel x = s.channel x := by cases x <;> rfl
@[simp] theorem setNode_group (k : Nat) (n : Node) (x : GroupId) :
    (setNode k n s).group x = s.group x := by cases x <;> rfl
@[simp] theorem setNode_input (k : Nat) (n : Node) (j : Nat) : (setNode k n s).input j = s.input j := rfl
@[simp] theorem setNode_slot (k : Nat) (n : Node) (x : Slot) : (setNode k n s).slot x = s.slot x := by cases x <;> rfl
@[simp] theorem setNode_hold (k : Nat) (n : Node) (x : HoldId) : (setNode k n s).hold x = s.hold x := rfl
@[simp] theorem setNode_limit (k : Nat) (n : Node) (x : LimitOrigin) : (setNode k n s).limit x = s.limit x := rfl
@[simp] theorem setPassRecord_cabin (k : Nat) (r : Option PlatformLine) (j : Nat) :
    (setPassRecord k r s).cabin j = s.cabin j := rfl
@[simp] theorem setPassRecord_node (k : Nat) (r : Option PlatformLine) (j : Nat) :
    (setPassRecord k r s).node j = s.node j := rfl
@[simp] theorem setPassRecord_port (k : Nat) (r : Option PlatformLine) (x : Port) :
    (setPassRecord k r s).port x = s.port x := by cases x <;> rfl
@[simp] theorem setPassRecord_bank (k : Nat) (r : Option PlatformLine) (x : BankId) :
    (setPassRecord k r s).bank x = s.bank x := by cases x <;> rfl
@[simp] theorem setPassRecord_channel (k : Nat) (r : Option PlatformLine) (x : Channel) :
    (setPassRecord k r s).channel x = s.channel x := by cases x <;> rfl
@[simp] theorem setPassRecord_group (k : Nat) (r : Option PlatformLine) (x : GroupId) :
    (setPassRecord k r s).group x = s.group x := by cases x <;> rfl
@[simp] theorem setPassRecord_input (k : Nat) (r : Option PlatformLine) (j : Nat) :
    (setPassRecord k r s).input j = s.input j := rfl
@[simp] theorem setPassRecord_slot (k : Nat) (r : Option PlatformLine) (x : Slot) :
    (setPassRecord k r s).slot x = s.slot x := by cases x <;> rfl
@[simp] theorem setPassRecord_hold (k : Nat) (r : Option PlatformLine) (x : HoldId) :
    (setPassRecord k r s).hold x = s.hold x := rfl
@[simp] theorem setPassRecord_limit (k : Nat) (r : Option PlatformLine) (x : LimitOrigin) :
    (setPassRecord k r s).limit x = s.limit x := rfl
@[simp] theorem setPort_cabin (p : Port) (q : PortState) (j : Nat) : (setPort p q s).cabin j = s.cabin j := rfl
@[simp] theorem setPort_node (p : Port) (q : PortState) (j : Nat) : (setPort p q s).node j = s.node j := rfl
@[simp] theorem setPort_passRecord (p : Port) (q : PortState) (j : Nat) :
    (setPort p q s).passRecord j = s.passRecord j := rfl
@[simp] theorem setPort_bank (p : Port) (q : PortState) (x : BankId) :
    (setPort p q s).bank x = s.bank x := by cases x <;> rfl
@[simp] theorem setPort_channel (p : Port) (q : PortState) (x : Channel) :
    (setPort p q s).channel x = s.channel x := by cases x <;> rfl
@[simp] theorem setPort_group (p : Port) (q : PortState) (x : GroupId) :
    (setPort p q s).group x = s.group x := by cases x <;> rfl
@[simp] theorem setPort_input (p : Port) (q : PortState) (j : Nat) : (setPort p q s).input j = s.input j := rfl
@[simp] theorem setPort_slot (p : Port) (q : PortState) (x : Slot) :
    (setPort p q s).slot x = s.slot x := by cases x <;> rfl
@[simp] theorem setPort_hold (p : Port) (q : PortState) (x : HoldId) : (setPort p q s).hold x = s.hold x := rfl
@[simp] theorem setPort_limit (p : Port) (q : PortState) (x : LimitOrigin) :
    (setPort p q s).limit x = s.limit x := rfl
@[simp] theorem setBank_cabin (b : BankId) (v : Bank) (j : Nat) : (setBank b v s).cabin j = s.cabin j := rfl
@[simp] theorem setBank_node (b : BankId) (v : Bank) (j : Nat) : (setBank b v s).node j = s.node j := rfl
@[simp] theorem setBank_passRecord (b : BankId) (v : Bank) (j : Nat) :
    (setBank b v s).passRecord j = s.passRecord j := rfl
@[simp] theorem setBank_port (b : BankId) (v : Bank) (x : Port) :
    (setBank b v s).port x = s.port x := by cases x <;> rfl
@[simp] theorem setBank_channel (b : BankId) (v : Bank) (x : Channel) :
    (setBank b v s).channel x = s.channel x := by cases x <;> rfl
@[simp] theorem setBank_group (b : BankId) (v : Bank) (x : GroupId) :
    (setBank b v s).group x = s.group x := by cases x <;> rfl
@[simp] theorem setBank_input (b : BankId) (v : Bank) (j : Nat) : (setBank b v s).input j = s.input j := rfl
@[simp] theorem setBank_slot (b : BankId) (v : Bank) (x : Slot) :
    (setBank b v s).slot x = s.slot x := by cases x <;> rfl
@[simp] theorem setBank_hold (b : BankId) (v : Bank) (x : HoldId) : (setBank b v s).hold x = s.hold x := rfl
@[simp] theorem setBank_limit (b : BankId) (v : Bank) (x : LimitOrigin) : (setBank b v s).limit x = s.limit x := rfl
@[simp] theorem setChannel_cabin (ch : Channel) (v : ChannelRec) (j : Nat) :
    (setChannel ch v s).cabin j = s.cabin j := rfl
@[simp] theorem setChannel_node (ch : Channel) (v : ChannelRec) (j : Nat) :
    (setChannel ch v s).node j = s.node j := rfl
@[simp] theorem setChannel_passRecord (ch : Channel) (v : ChannelRec) (j : Nat) :
    (setChannel ch v s).passRecord j = s.passRecord j := rfl
@[simp] theorem setChannel_port (ch : Channel) (v : ChannelRec) (x : Port) :
    (setChannel ch v s).port x = s.port x := by cases x <;> rfl
@[simp] theorem setChannel_bank (ch : Channel) (v : ChannelRec) (x : BankId) :
    (setChannel ch v s).bank x = s.bank x := by cases x <;> rfl
@[simp] theorem setChannel_group (ch : Channel) (v : ChannelRec) (x : GroupId) :
    (setChannel ch v s).group x = s.group x := by cases x <;> rfl
@[simp] theorem setChannel_input (ch : Channel) (v : ChannelRec) (j : Nat) :
    (setChannel ch v s).input j = s.input j := rfl
@[simp] theorem setChannel_slot (ch : Channel) (v : ChannelRec) (x : Slot) :
    (setChannel ch v s).slot x = s.slot x := by cases x <;> rfl
@[simp] theorem setChannel_hold (ch : Channel) (v : ChannelRec) (x : HoldId) :
    (setChannel ch v s).hold x = s.hold x := rfl
@[simp] theorem setChannel_limit (ch : Channel) (v : ChannelRec) (x : LimitOrigin) :
    (setChannel ch v s).limit x = s.limit x := rfl
@[simp] theorem setGroup_cabin (g : GroupId) (v : InputGroup) (j : Nat) : (setGroup g v s).cabin j = s.cabin j := rfl
@[simp] theorem setGroup_node (g : GroupId) (v : InputGroup) (j : Nat) : (setGroup g v s).node j = s.node j := rfl
@[simp] theorem setGroup_passRecord (g : GroupId) (v : InputGroup) (j : Nat) :
    (setGroup g v s).passRecord j = s.passRecord j := rfl
@[simp] theorem setGroup_port (g : GroupId) (v : InputGroup) (x : Port) :
    (setGroup g v s).port x = s.port x := by cases x <;> rfl
@[simp] theorem setGroup_bank (g : GroupId) (v : InputGroup) (x : BankId) :
    (setGroup g v s).bank x = s.bank x := by cases x <;> rfl
@[simp] theorem setGroup_channel (g : GroupId) (v : InputGroup) (x : Channel) :
    (setGroup g v s).channel x = s.channel x := by cases x <;> rfl
@[simp] theorem setGroup_input (g : GroupId) (v : InputGroup) (j : Nat) :
    (setGroup g v s).input j = s.input j := by cases g <;> rfl
@[simp] theorem setGroup_slot (g : GroupId) (v : InputGroup) (x : Slot) :
    (setGroup g v s).slot x = s.slot x := by cases x <;> rfl
@[simp] theorem setGroup_hold (g : GroupId) (v : InputGroup) (x : HoldId) : (setGroup g v s).hold x = s.hold x := rfl
@[simp] theorem setGroup_limit (g : GroupId) (v : InputGroup) (x : LimitOrigin) :
    (setGroup g v s).limit x = s.limit x := rfl
@[simp] theorem setInput_cabin (i : Nat) (v : Input) (j : Nat) : (setInput i v s).cabin j = s.cabin j := rfl
@[simp] theorem setInput_node (i : Nat) (v : Input) (j : Nat) : (setInput i v s).node j = s.node j := rfl
@[simp] theorem setInput_passRecord (i : Nat) (v : Input) (j : Nat) :
    (setInput i v s).passRecord j = s.passRecord j := rfl
@[simp] theorem setInput_port (i : Nat) (v : Input) (x : Port) :
    (setInput i v s).port x = s.port x := by cases x <;> rfl
@[simp] theorem setInput_bank (i : Nat) (v : Input) (x : BankId) :
    (setInput i v s).bank x = s.bank x := by cases x <;> rfl
@[simp] theorem setInput_channel (i : Nat) (v : Input) (x : Channel) :
    (setInput i v s).channel x = s.channel x := by cases x <;> rfl
@[simp] theorem setInput_slot (i : Nat) (v : Input) (x : Slot) :
    (setInput i v s).slot x = s.slot x := by cases x <;> rfl
@[simp] theorem setInput_hold (i : Nat) (v : Input) (x : HoldId) : (setInput i v s).hold x = s.hold x := rfl
@[simp] theorem setInput_limit (i : Nat) (v : Input) (x : LimitOrigin) : (setInput i v s).limit x = s.limit x := rfl
@[simp] theorem setSlot_cabin (sl : Slot) (m : Option Move) (j : Nat) : (setSlot sl m s).cabin j = s.cabin j := rfl
@[simp] theorem setSlot_node (sl : Slot) (m : Option Move) (j : Nat) : (setSlot sl m s).node j = s.node j := rfl
@[simp] theorem setSlot_passRecord (sl : Slot) (m : Option Move) (j : Nat) :
    (setSlot sl m s).passRecord j = s.passRecord j := rfl
@[simp] theorem setSlot_port (sl : Slot) (m : Option Move) (x : Port) :
    (setSlot sl m s).port x = s.port x := by cases x <;> rfl
@[simp] theorem setSlot_bank (sl : Slot) (m : Option Move) (x : BankId) :
    (setSlot sl m s).bank x = s.bank x := by cases x <;> rfl
@[simp] theorem setSlot_channel (sl : Slot) (m : Option Move) (x : Channel) :
    (setSlot sl m s).channel x = s.channel x := by cases x <;> rfl
@[simp] theorem setSlot_group (sl : Slot) (m : Option Move) (x : GroupId) :
    (setSlot sl m s).group x = s.group x := by cases x <;> rfl
@[simp] theorem setSlot_input (sl : Slot) (m : Option Move) (j : Nat) : (setSlot sl m s).input j = s.input j := rfl
@[simp] theorem setSlot_hold (sl : Slot) (m : Option Move) (x : HoldId) : (setSlot sl m s).hold x = s.hold x := rfl
@[simp] theorem setSlot_limit (sl : Slot) (m : Option Move) (x : LimitOrigin) :
    (setSlot sl m s).limit x = s.limit x := rfl
@[simp] theorem notify_cabin (n : Notice) (j : Nat) : (notify n s).cabin j = s.cabin j := rfl
@[simp] theorem notify_node (n : Notice) (j : Nat) : (notify n s).node j = s.node j := rfl
@[simp] theorem notify_passRecord (n : Notice) (j : Nat) : (notify n s).passRecord j = s.passRecord j := rfl
@[simp] theorem notify_bank (n : Notice) (x : BankId) : (notify n s).bank x = s.bank x := by cases x <;> rfl
@[simp] theorem notify_channel (n : Notice) (x : Channel) : (notify n s).channel x = s.channel x := by cases x <;> rfl
@[simp] theorem notify_group (n : Notice) (x : GroupId) : (notify n s).group x = s.group x := by cases x <;> rfl
@[simp] theorem notify_input (n : Notice) (j : Nat) : (notify n s).input j = s.input j := rfl
@[simp] theorem notify_slot (n : Notice) (x : Slot) : (notify n s).slot x = s.slot x := by cases x <;> rfl
@[simp] theorem notify_hold (n : Notice) (x : HoldId) : (notify n s).hold x = s.hold x := rfl
@[simp] theorem notify_limit (n : Notice) (x : LimitOrigin) : (notify n s).limit x = s.limit x := rfl

@[simp] theorem setInput_group (i : Nat) (v : Input) (g : GroupId) : (setInput i v s).group g = s.group g := by
  cases g <;> rfl

/-! ### What an update puts in place -/

@[simp] theorem setPort_port_self (p : Port) (q : PortState) : (setPort p q s).port p = q := by cases p <;> rfl

theorem setPort_port_other {p x : Port} (h : x ≠ p) (q : PortState) : (setPort p q s).port x = s.port x := by
  cases p <;> cases x <;> first | rfl | exact absurd rfl h

@[simp] theorem setPort_same (p : Port) : setPort p (s.port p) s = s := by cases p <;> rfl

@[simp] theorem setPort_setPort (p : Port) (q r : PortState) : setPort p q (setPort p r s) = setPort p q s := by
  cases p <;> rfl

@[simp] theorem setBank_bank_self (b : BankId) (v : Bank) : (setBank b v s).bank b = v := by cases b <;> rfl

theorem setBank_bank_other {b x : BankId} (h : x ≠ b) (v : Bank) : (setBank b v s).bank x = s.bank x := by
  cases b <;> cases x <;> first | rfl | exact absurd rfl h

@[simp] theorem setGroup_group_self (g : GroupId) (v : InputGroup) :
    (setGroup g v s).group g = v := by cases g <;> rfl

theorem setGroup_group_other {g x : GroupId} (h : x ≠ g) (v : InputGroup) : (setGroup g v s).group x = s.group x := by
  cases g <;> cases x <;> first | rfl | exact absurd rfl h

@[simp] theorem setChannel_channel_self (ch : Channel) (v : ChannelRec) : (setChannel ch v s).channel ch = v := by
  cases ch <;> rfl

theorem setChannel_channel_other {ch x : Channel} (h : x ≠ ch) (v : ChannelRec) :
    (setChannel ch v s).channel x = s.channel x := by
  cases ch <;> cases x <;> first | rfl | exact absurd rfl h

@[simp] theorem setSlot_slot_self (sl : Slot) (m : Option Move) : (setSlot sl m s).slot sl = m := by cases sl <;> rfl

theorem setSlot_slot_other {sl x : Slot} (h : x ≠ sl) (m : Option Move) : (setSlot sl m s).slot x = s.slot x := by
  cases sl <;> cases x <;> first | rfl | exact absurd rfl h

/-! ### Lists numbered from 1 -/

theorem length_setNth {α : Type} (l : List α) (k : Nat) (v : α) : (setNth l k v).length = l.length := by
  cases k <;> simp [setNth]

theorem nth_setNth_self {α : Type} (l : List α) (k : Nat) (v d : α) (h : 1 ≤ k ∧ k ≤ l.length) :
    nth (setNth l k v) k d = v := by
  obtain ⟨h1, h2⟩ := h
  cases k with
  | zero => omega
  | succ k =>
    simp only [nth, setNth, List.getD, List.getElem?_set]
    simp [show k < l.length by omega]

theorem nth_setNth_other {α : Type} (l : List α) (j k : Nat) (v d : α) (h : j ≠ k) :
    nth (setNth l k v) j d = nth l j d := by
  cases j with
  | zero => rfl
  | succ j =>
    cases k with
    | zero => rfl
    | succ k =>
      have hk : k ≠ j := by omega
      simp [nth, setNth, List.getD, hk]

theorem setNth_nth {α : Type} (l : List α) (k : Nat) (d : α) : setNth l k (nth l k d) = l := by
  cases k with
  | zero => rfl
  | succ k =>
    apply List.ext_getElem?
    intro i
    simp only [nth, setNth, List.getElem?_set, List.getD]
    by_cases hk : k = i
    · subst hk
      by_cases h : k < l.length <;> simp [h]
    · simp [hk]

theorem map_setNth {α β : Type} (f : α → β) (l : List α) (k : Nat) (v : α) :
    (setNth l k v).map f = setNth (l.map f) k (f v) := by
  cases k <;> simp [setNth, List.map_set]

theorem setCabin_cabin_self (k : Nat) (c : Cabin) (h : 1 ≤ k ∧ k ≤ s.bsq.cabins.length) :
    (setCabin k c s).cabin k = c := nth_setNth_self _ _ _ _ h

theorem setCabin_cabin_other {j k : Nat} (c : Cabin) (h : j ≠ k) : (setCabin k c s).cabin j = s.cabin j :=
  nth_setNth_other _ _ _ _ _ h

theorem setNode_node_self (k : Nat) (n : Node) (h : 1 ≤ k ∧ k ≤ s.cru.nodes.length) : (setNode k n s).node k = n :=
  nth_setNth_self _ _ _ _ h

theorem setNode_node_other {j k : Nat} (n : Node) (h : j ≠ k) : (setNode k n s).node j = s.node j :=
  nth_setNth_other _ _ _ _ _ h

theorem setPassRecord_passRecord_other {j k : Nat} (r : Option PlatformLine) (h : j ≠ k) :
    (setPassRecord k r s).passRecord j = s.passRecord j := nth_setNth_other _ _ _ _ _ h

end Sys2Proof.Machine
end

