-- ==== Sys2Proof/Laws/Events.lean ====
section
/-! SUPPORT. What an event inside the blocks can do, said once: Event s t names all that it leaves as it was, that it reaches
the ports by notices alone, and that it keeps the hold set, the wheel and the group queue sound. One lemma for each shared
operation, so that later proofs cite it and never unfold the operation. -/

namespace Sys2Proof.Machine

/-! ### The relation -/

/-- The ports after some notices. -/
def Lkp.noticed (v : Lkp) (ns : List Notice) : Lkp :=
  { p1 := ns.foldl (fun q n => portNotice n q) v.p1, p2 := ns.foldl (fun q n => portNotice n q) v.p2 }

/-- Rotation state, commanded speed, drive reference and trial step, which WheelSound relates. -/
def Roc.drive (r : Roc) : Rotation × Nat × Nat × Bool := (r.rotation, r.vCmd, r.driveRef, r.trialStep)

/-- Run-enable, a_eff and the three lines, which no inner event moves. -/
def Roc.kept (r : Roc) : Bool × Nat × Bool × Bool × Bool :=
  (r.runEnable, r.aEff, r.driveReady, r.brakeReleased, r.brakeSet)

/-- What a good reply writes in a node record. -/
def Node.heard (n : Node) : NodeState × Door × Nat × Bool × Bool × Option Nat :=
  (n.state, n.door, n.load, n.call, n.selfCheck, n.lastAnswer)

/-- The manifests of the cabin records. -/
def State.manifests (s : State) : List (Option Manifest) := s.bsq.cabins.map Cabin.manifest

/-- Slot B is PENDING only while slot A is occupied (R47). -/
def State.slotsSound (s : State) : Prop := s.pendingB = true → s.occupiedA = true

/-- A trial measures only under a trial step (R54). -/
def State.trialSound (s : State) : Prop := s.mvu.trial.status = .measuring → s.roc.trialStep = true

/-- The invariants that an inner event keeps. -/
structure Inner (s : State) : Prop where
  holds : HoldsSound s.hlu
  wheel : WheelSound s
  points : PointsSound s.roc.limits
  slots : s.slotsSound
  groups : GroupsSound s

/-- The blocks are sound exactly when an inner event's invariants hold and a trial measures under its trial step only. -/
theorem blocksSound_iff (s : State) : BlocksSound s ↔ Inner s ∧ s.trialSound :=
  ⟨fun h => ⟨⟨h.holds, h.wheel, h.points, h.moves.slots, h.groups⟩, h.moves.trial⟩,
    fun ⟨i, ht⟩ => ⟨i.holds, i.wheel, i.points, ⟨i.slots, ht⟩, i.groups⟩⟩

/-- What a part of an event inside the blocks leaves as it was, and what it keeps. -/
structure Quiet (s t : State) : Prop where
  ptr : t.ptr = s.ptr
  wmn : t.wmn = s.wmn
  pim : t.pim = s.pim
  cfs : t.cfs = s.cfs
  time : t.time = s.time
  pending : t.pending = s.pending
  kept : t.roc.kept = s.roc.kept
  /-- but for a trip, the Rotation Controller changes in its limit points alone -/
  roc : t.roc.rotation = .tripped ∨ t.roc = { s.roc with limits := t.roc.limits }
  heard : t.cru.nodes.map Node.heard = s.cru.nodes.map Node.heard
  cabins : t.bsq.cabins.length = s.bsq.cabins.length
  ports : ∃ ns, t.lkp = s.lkp.noticed ns
  inner : Inner s → Inner t

/-- What an event inside the blocks leaves as it was, and what it keeps; it begins no trial, and a trial that it leaves
measuring has its trial step as it was. -/
structure Event (s t : State) : Prop extends Quiet s t where
  trial : t.mvu.trial.status = .measuring → s.mvu.trial.status = .measuring ∧ t.roc.trialStep = s.roc.trialStep

/-- An update that reaches neither the hold set nor what the invariants read. -/
structure Mild (s t : State) : Prop where
  ptr : t.ptr = s.ptr := by rfl
  wmn : t.wmn = s.wmn := by rfl
  pim : t.pim = s.pim := by rfl
  cfs : t.cfs = s.cfs := by rfl
  time : t.time = s.time := by rfl
  pending : t.pending = s.pending := by rfl
  hlu : t.hlu = s.hlu := by rfl
  drive : t.roc.drive = s.roc.drive := by rfl
  kept : t.roc.kept = s.roc.kept := by rfl
  roc : t.roc = { s.roc with limits := t.roc.limits } := by rfl
  points : PointsSound s.roc.limits → PointsSound t.roc.limits := by exact fun h => h
  trial : t.mvu.trial.status = .measuring → s.mvu.trial.status = .measuring := by exact fun h => h
  heard : t.cru.nodes.map Node.heard = s.cru.nodes.map Node.heard := by rfl
  queue : t.bsq.queue = s.bsq.queue := by rfl
  manifests : t.manifests = s.manifests := by rfl
  ports : ∃ ns, t.lkp = s.lkp.noticed ns := by exact ⟨[], rfl⟩

theorem Lkp.noticed_noticed (v : Lkp) (ns ms : List Notice) : (v.noticed ns).noticed ms = v.noticed (ns ++ ms) := by
  simp [Lkp.noticed, List.foldl_append]

theorem Quiet.refl (s : State) : Quiet s s :=
  ⟨rfl, rfl, rfl, rfl, rfl, rfl, rfl, .inr rfl, rfl, rfl, ⟨[], rfl⟩, id⟩

theorem Quiet.trans {s t u : State} (h : Quiet s t) (k : Quiet t u) : Quiet s u := by
  refine ⟨k.ptr.trans h.ptr, k.wmn.trans h.wmn, k.pim.trans h.pim, k.cfs.trans h.cfs, k.time.trans h.time,
    k.pending.trans h.pending, k.kept.trans h.kept, ?_, k.heard.trans h.heard, k.cabins.trans h.cabins, ?_,
    k.inner ∘ h.inner⟩
  · rcases k.roc with hk | hk
    · exact .inl hk
    · rcases h.roc with hr | hr
      · exact .inl (by rw [hk]; exact hr)
      · exact .inr (by rw [hk, hr])
  obtain ⟨ns, hn⟩ := h.ports
  obtain ⟨ms, hm⟩ := k.ports
  exact ⟨ns ++ ms, by rw [hm, hn, Lkp.noticed_noticed]⟩

theorem Event.refl (s : State) : Event s s := ⟨.refl s, fun h => ⟨h, rfl⟩⟩

theorem Event.trans {s t u : State} (h : Event s t) (k : Event t u) : Event s u :=
  ⟨h.toQuiet.trans k.toQuiet, fun m => ⟨(h.trial (k.trial m).1).1, (k.trial m).2.trans (h.trial (k.trial m).1).2⟩⟩

/-- An event keeps the trial under its trial step. -/
theorem Event.trialSound {s t : State} (h : Event s t) (i : s.trialSound) : t.trialSound := fun m => by
  rw [(h.trial m).2]; exact i (h.trial m).1

theorem Mild.trans {s t u : State} (h : Mild s t) (k : Mild t u) : Mild s u := by
  refine ⟨k.ptr.trans h.ptr, k.wmn.trans h.wmn, k.pim.trans h.pim, k.cfs.trans h.cfs, k.time.trans h.time,
    k.pending.trans h.pending, k.hlu.trans h.hlu, k.drive.trans h.drive, k.kept.trans h.kept,
    by rw [k.roc, h.roc], k.points ∘ h.points, h.trial ∘ k.trial, k.heard.trans h.heard, k.queue.trans h.queue, k.manifests.trans h.manifests, ?_⟩
  obtain ⟨ns, hn⟩ := h.ports
  obtain ⟨ms, hm⟩ := k.ports
  exact ⟨ns ++ ms, by rw [hm, hn, Lkp.noticed_noticed]⟩

theorem State.heldIds_eq (s : State) :
    s.heldIds = s.bsq.queue.map Group.id ++ s.manifests.filterMap fun m => m.map Manifest.id := by
  rw [State.heldIds, State.manifests, List.filterMap_map]; rfl

theorem WheelSound.congr {s t : State} (hl : t.hlu = s.hlu) (hd : t.roc.drive = s.roc.drive)
    (hc : t.cfs.device = s.cfs.device) (hv : t.cfs.speeds = s.cfs.speeds) (ha : t.roc.aEff = s.roc.aEff)
    (h : WheelSound s) : WheelSound t := by
  simp only [Roc.drive, Prod.mk.injEq] at hd
  obtain ⟨h1, h2, h3, h4⟩ := hd
  refine ⟨?_, ?_, ?_, ?_, ?_, ?_, ?_⟩
  · rw [hl, h1]; exact h.park
  · rw [hc, State.wheelParked, h1]; exact h.config
  · rw [h1, h2]; exact h.still
  · rw [h3, h2]; exact h.reference
  · rw [h4, h1, h2]; exact h.trial
  · rw [h2, hv]; exact h.cruise
  · rw [hv, ha]; exact h.decel

theorem GroupsSound.congr {s t : State} (hq : t.bsq.queue = s.bsq.queue) (hm : t.manifests = s.manifests)
    (h : GroupsSound s) : GroupsSound t := by
  refine ⟨by rw [hq]; exact h.bound, ?_⟩
  rw [State.heldIds_eq, hq, hm, ← State.heldIds_eq]; exact h.distinct

theorem Mild.aEff {s t : State} (h : Mild s t) : t.roc.aEff = s.roc.aEff := by rw [h.roc]

/-- A mild update is an event when it keeps the slots of the Move Unit sound. -/
theorem Mild.event {s t : State} (h : Mild s t) (hs : s.slotsSound → t.slotsSound := by exact id) : Event s t :=
  ⟨⟨h.ptr, h.wmn, h.pim, h.cfs, h.time, h.pending, h.kept, .inr h.roc, h.heard,
    by simpa [State.manifests] using congrArg List.length h.manifests, h.ports, fun i =>
    ⟨by rw [h.hlu]; exact i.holds, i.wheel.congr h.hlu h.drive (by rw [h.cfs]) (by rw [h.cfs]) h.aEff, h.points i.points,
      hs i.slots, i.groups.congr h.queue h.manifests⟩⟩,
    fun m => ⟨h.trial m, by rw [h.roc]⟩⟩

/-- A list taken element by element through events is one event. -/
theorem Event.foldl {α : Type} (f : State → α → State) (hf : ∀ s a, Event s (f s a)) (l : List α) :
    ∀ s, Event s (l.foldl f s) := by
  induction l with
  | nil => exact Event.refl
  | cons a l ih => exact fun s => (hf s a).trans (ih _)

theorem Event.ite {s t u : State} {c : Prop} [Decidable c] (h : Event s t) (k : Event s u) :
    Event s (if c then t else u) := by
  split
  · exact h
  · exact k

/-! ### The named updates -/

theorem manifests_setCabin (k : Nat) (c : Cabin) (s : State) :
    (setCabin k c s).manifests = setNth s.manifests k c.manifest := map_setNth _ _ _ _

theorem nth_manifests (s : State) (k : Nat) : nth s.manifests k none = (s.cabin k).manifest := by
  cases k with
  | zero => rfl
  | succ k =>
    simp only [State.manifests, State.cabin, nth, List.getD, List.getElem?_map]
    cases s.bsq.cabins[k]? <;> rfl

theorem setCabin_manifests (k : Nat) (c : Cabin) (s : State) (h : c.manifest = (s.cabin k).manifest) :
    (setCabin k c s).manifests = s.manifests := by
  rw [manifests_setCabin, h, ← nth_manifests, setNth_nth]

theorem setCabin_mild {k : Nat} {c : Cabin} {s : State} (h : c.manifest = (s.cabin k).manifest) :
    Mild s (setCabin k c s) := { manifests := setCabin_manifests k c s h }

theorem setCabin_event {k : Nat} {c : Cabin} {s : State} (h : c.manifest = (s.cabin k).manifest) :
    Event s (setCabin k c s) := (setCabin_mild h).event

theorem nth_heard (s : State) (k : Nat) : nth (s.cru.nodes.map Node.heard) k Node.cold.heard = (s.node k).heard := by
  cases k with
  | zero => rfl
  | succ k =>
    simp only [State.node, nth, List.getD, List.getElem?_map]
    cases s.cru.nodes[k]? <;> rfl

theorem setNode_mild {k : Nat} {n : Node} {s : State} (h : n.heard = (s.node k).heard) : Mild s (setNode k n s) :=
  { heard := by
      show (setNth s.cru.nodes k n).map Node.heard = _
      rw [map_setNth, h, ← nth_heard, setNth_nth] }

theorem setNode_event {k : Nat} {n : Node} {s : State} (h : n.heard = (s.node k).heard) : Event s (setNode k n s) :=
  (setNode_mild h).event

theorem setBank_event (b : BankId) (v : Bank) (s : State) : Event s (setBank b v s) := Mild.event {}


theorem notify_mild (n : Notice) (s : State) : Mild s (notify n s) := { ports := ⟨[n], rfl⟩ }

theorem notify_event (n : Notice) (s : State) : Event s (notify n s) := (notify_mild n s).event

/-! ### The limit-point list (R31) -/

theorem origins_placeLimit (e : LimitPoint) (l : List LimitPoint) :
    (placeLimit e l).map LimitPoint.origin = if e.origin ∈ l.map LimitPoint.origin then l.map LimitPoint.origin
      else l.map LimitPoint.origin ++ [e.origin] := by
  induction l with
  | nil => simp [placeLimit]
  | cons a l ih =>
    simp only [placeLimit, List.map_cons, List.mem_cons]
    by_cases h : a.origin = e.origin
    · simp [h]
    · have h' : ¬ e.origin = a.origin := fun k => h k.symm
      simp only [h, if_false, h', false_or, List.map_cons, ih]
      split <;> simp

/-- Whether an identity is that of a DOOR entry. -/
def LimitOrigin.isDoor : LimitOrigin → Bool
  | .door _ => true
  | .move => false
  | .slow => false

theorem doors_length (l : List LimitPoint) :
    (l.filter LimitPoint.isDoor).length = ((l.map LimitPoint.origin).filter LimitOrigin.isDoor).length := by
  have h : LimitPoint.isDoor = LimitOrigin.isDoor ∘ LimitPoint.origin := by
    funext e; unfold LimitPoint.isDoor LimitOrigin.isDoor Function.comp; cases e.origin <;> rfl
  rw [h, List.filter_map, List.length_map]

/-- The list is sound by its identities alone. -/
theorem PointsSound.of_origins {l m : List LimitPoint} (h : PointsSound l)
    (e : m.map LimitPoint.origin = l.map LimitPoint.origin) : PointsSound m :=
  ⟨by rw [e]; exact h.distinct, by rw [doors_length, e, ← doors_length]; exact h.doors⟩

/-- An insertion keeps the list sound when it is no fifth DOOR entry. -/
theorem placeLimit_sound {e : LimitPoint} {l : List LimitPoint} (h : PointsSound l)
    (hd : e.origin.isDoor = true → e.origin ∉ l.map LimitPoint.origin → (l.filter LimitPoint.isDoor).length < 4) :
    PointsSound (placeLimit e l) := by
  by_cases hm : e.origin ∈ l.map LimitPoint.origin
  · exact h.of_origins (by rw [origins_placeLimit, if_pos hm])
  · refine ⟨?_, ?_⟩
    · rw [origins_placeLimit, if_neg hm]
      exact List.nodup_append.mpr ⟨h.distinct, by simp, by
        intro x hx y hy; simp at hy; subst hy; exact fun k => hm (k ▸ hx)⟩
    · rw [doors_length, origins_placeLimit, if_neg hm, List.filter_append, List.length_append, ← doors_length]
      have := h.doors
      cases hb : e.origin.isDoor
      · simpa [hb] using this
      · have := hd hb hm
        simp [hb]; omega

theorem limitInsert_mild {o : LimitOrigin} {line v : Nat} {m : Bool} {r : Int} {s : State}
    (hd : o.isDoor = true → o ∉ s.roc.limits.map LimitPoint.origin → s.doorCount < 4) :
    Mild s (limitInsert o line v m r s) := { points := fun h => placeLimit_sound h hd }

theorem limitInsert_event {o : LimitOrigin} {line v : Nat} {m : Bool} {r : Int} {s : State}
    (hd : o.isDoor = true → o ∉ s.roc.limits.map LimitPoint.origin → s.doorCount < 4) :
    Event s (limitInsert o line v m r s) := (limitInsert_mild hd).event

theorem limitRemove_mild (o : LimitOrigin) (s : State) : Mild s (limitRemove o s) :=
  { points := fun h => ⟨h.distinct.sublist (List.Sublist.map _ List.filter_sublist),
      Nat.le_trans (List.Sublist.length_le (List.Sublist.filter _ List.filter_sublist)) h.doors⟩ }

theorem limitRemove_event (o : LimitOrigin) (s : State) : Event s (limitRemove o s) := (limitRemove_mild o s).event

theorem markOverrun_event (o : LimitOrigin) (s : State) : Event s (markOverrun o s) :=
  Mild.event { points := fun h => h.of_origins (by
    show List.map _ (List.map _ _) = _
    rw [List.map_map]
    exact List.map_congr_left fun e _ => by simp only [Function.comp]; split <;> rfl) }

/-- The identity is in the list exactly when the cabin has its DOOR entry. -/
theorem State.hasDoor_eq (s : State) (k : Nat) :
    s.hasDoor k = decide (LimitOrigin.door k ∈ s.roc.limits.map LimitPoint.origin) := by
  rw [Bool.eq_iff_iff, decide_eq_true_iff, State.hasDoor, State.limit, List.find?_isSome, List.mem_map]
  simp

/-- A manifest cleared frees its id and takes none. -/
theorem clearManifest_event (k : Nat) (s : State) : Event s (setCabin k { s.cabin k with manifest := none } s) := by
  refine ⟨⟨rfl, rfl, rfl, rfl, rfl, rfl, rfl, .inr rfl, rfl, length_setNth _ _ _, ⟨[], rfl⟩, fun i =>
    ⟨i.holds, ?_, i.points, i.slots, ?_⟩⟩, fun m => ⟨m, rfl⟩⟩
  · exact WheelSound.congr (s := s) rfl rfl rfl rfl rfl i.wheel
  · refine ⟨i.groups.bound, ?_⟩
    have hd := i.groups.distinct
    rw [State.heldIds_eq] at hd ⊢
    rw [manifests_setCabin]
    refine hd.sublist (List.Sublist.append (List.Sublist.refl _) ?_)
    generalize s.manifests = l
    cases k with
    | zero => exact List.Sublist.refl _
    | succ k =>
      show ((l.set k none).filterMap _).Sublist _
      induction l generalizing k with
      | nil => exact List.Sublist.refl _
      | cons a l ih =>
        cases k with
        | zero =>
          cases a
          · exact List.Sublist.refl _
          · exact List.Sublist.cons _ (List.Sublist.refl _)
        | succ k =>
          cases a
          · exact ih k
          · exact List.Sublist.cons_cons _ (ih k)

end Sys2Proof.Machine
end

