-- ==== Sys2Proof/Laws/Holds.lean ====
section
/-! SUPPORT. The hold set and what a change of it does (R136 to R139): the trip, the ends of moves and trials, the bring-home
entry, and the two operations every owner uses. -/

namespace Sys2Proof.Machine

/-! ### Levels and entries -/

theorem Level.max_none (a : Level) : Level.none.max a = a := by cases a <;> rfl

theorem Level.code_max (a b : Level) : (a.max b).code = Nat.max a.code b.code := by cases a <;> cases b <;> rfl

theorem mem_placeEntry {e x : HoldEntry} {l : List HoldEntry} (h : x ∈ placeEntry e l) : x = e ∨ x ∈ l := by
  induction l with
  | nil => simpa [placeEntry] using h
  | cons a l ih =>
    simp only [placeEntry] at h
    split at h
    · rcases List.mem_cons.mp h with h | h
      · exact .inl h
      · exact .inr (List.mem_cons_of_mem _ h)
    · rcases List.mem_cons.mp h with h | h
      · exact .inr (h ▸ List.mem_cons_self)
      · rcases ih h with h | h
        · exact .inl h
        · exact .inr (List.mem_cons_of_mem _ h)

theorem ids_placeEntry (e : HoldEntry) (l : List HoldEntry) :
    (placeEntry e l).map HoldEntry.id = if e.id ∈ l.map HoldEntry.id then l.map HoldEntry.id
      else l.map HoldEntry.id ++ [e.id] := by
  induction l with
  | nil => simp [placeEntry]
  | cons a l ih =>
    simp only [placeEntry, List.map_cons, List.mem_cons]
    by_cases h : a.id = e.id
    · simp [h]
    · have h' : ¬ e.id = a.id := fun k => h k.symm
      simp only [h, if_false, h', false_or, List.map_cons, ih]
      split <;> simp

theorem filter_placeEntry_length (e : HoldEntry) (l : List HoldEntry) (f : HoldId → Bool) :
    ((placeEntry e l).filter fun x => f x.id).length =
      (l.filter fun x => f x.id).length + if f e.id ∧ e.id ∉ l.map HoldEntry.id then 1 else 0 := by
  have key (m : List HoldEntry) : (m.filter fun x => f x.id).length = ((m.map HoldEntry.id).filter f).length := by
    rw [List.filter_map, List.length_map]; rfl
  rw [key, key, ids_placeEntry]
  by_cases h : e.id ∈ l.map HoldEntry.id
  · rw [if_pos h, if_neg (fun k => k.2 h)]; rfl
  · rw [if_neg h, List.filter_append, List.length_append]
    cases hf : f e.id <;> simp [hf, h]

/-- The identity is in the set exactly when hold finds an entry. -/
theorem State.hold_isSome (s : State) (id : HoldId) : (s.hold id).isSome = decide (id ∈ s.hlu.entries.map HoldEntry.id) := by
  rw [Bool.eq_iff_iff, decide_eq_true_iff, State.hold, List.find?_isSome, List.mem_map]
  simp

/-! ### Forming the set -/

/-- What an insertion must not break: its identity is legal, its level restricts, and a station's fifth entry is no new
one. -/
structure Admits (id : HoldId) (level : Level) (s : State) : Prop where
  legal : id.legal
  restrictive : level ≠ .none
  station : ∀ p : Port, id.ofStation p = true → id ∉ s.hlu.entries.map HoldEntry.id → s.stationCount p < 4

/-- A hold set formed anew is sound when its entries are. -/
theorem formed_sound {l : List HoldEntry} (hl : ∀ e ∈ l, e.id.legal) (hd : (l.map HoldEntry.id).Nodup)
    (hr : ∀ e ∈ l, e.level ≠ .none) (hs : ∀ p : Port, (l.filter fun e => e.id.ofStation p).length ≤ 4) :
    HoldsSound
      { entries := l, effective := highestLevel l, other := highestLevel (l.filter fun e => e.id != .boarding) } := ⟨hl, hd, hr, hs, rfl, rfl⟩

/-- What forming the set does: the set as given, its levels formed, and at most one notice. -/
theorem holdForm_spec (id : HoldId) (c : HoldChange) (v : Option Level) (l : List HoldEntry) (s : State) :
    (holdForm id c v l s).hlu =
      { entries := l, effective := highestLevel l, other := highestLevel (l.filter fun e => e.id != .boarding) } := by
  unfold holdForm; dsimp only; split <;> rfl

/-- s and t differ in the hold set and by notices only, and the set stays sound. -/
structure Formed (s t : State) : Prop where
  rest : t = { s with hlu := t.hlu, lkp := t.lkp }
  ports : ∃ ns, t.lkp = s.lkp.noticed ns
  holds : HoldsSound s.hlu → HoldsSound t.hlu

theorem holdForm_formed {id : HoldId} {c : HoldChange} {v : Option Level} {l : List HoldEntry} {s : State}
    (h : HoldsSound s.hlu → HoldsSound (holdForm id c v l s).hlu) : Formed s (holdForm id c v l s) := by
  refine ⟨?_, ?_, h⟩
  · unfold holdForm; dsimp only; split <;> rfl
  · unfold holdForm; dsimp only; split
    · exact ⟨[], rfl⟩
    · exact ⟨[_], rfl⟩

theorem Formed.notify {s t : State} (h : Formed s t) (n : Notice) : Formed s (notify n t) := by
  refine ⟨?_, ?_, h.holds⟩
  · rw [h.rest]; rfl
  · obtain ⟨ns, hn⟩ := h.ports
    exact ⟨ns ++ [n], by rw [← Lkp.noticed_noticed, ← hn]; rfl⟩

theorem holdFormInsert_formed {id : HoldId} {v : Level} {s : State} (a : Admits id v s) : Formed s (holdFormInsert id v s) := by
  apply holdForm_formed
  intro h
  rw [holdForm_spec]
  apply formed_sound
  · intro e he
    rcases mem_placeEntry he with rfl | he
    · exact a.legal
    · exact h.legal e he
  · rw [ids_placeEntry]
    split
    · exact h.distinct
    · next hn => exact List.nodup_append.mpr ⟨h.distinct, by simp, by intro x hx y hy; simp at hy; subst hy; exact fun k => hn (k ▸ hx)⟩
  · intro e he
    rcases mem_placeEntry he with rfl | he
    · exact a.restrictive
    · exact h.restrictive e he
  · intro p
    rw [filter_placeEntry_length _ _ (fun i => i.ofStation p)]
    split
    · next hn => have := a.station p hn.1 hn.2; unfold State.stationCount at this; omega
    · exact h.stations p

theorem holdFormRemove_formed (id : HoldId) (s : State) : Formed s (holdFormRemove id s) := by
  apply holdForm_formed
  intro h
  rw [holdForm_spec]
  apply formed_sound
  · exact fun e he => h.legal e (List.mem_filter.mp he).1
  · exact h.distinct.sublist (List.Sublist.map _ List.filter_sublist)
  · exact fun e he => h.restrictive e (List.mem_filter.mp he).1
  · exact fun p => Nat.le_trans (List.Sublist.length_le (List.Sublist.filter _ List.filter_sublist)) (h.stations p)

/-! ### The trip (R25) -/

theorem driveWord_zero : driveWord 0 = 0 := rfl

/-- What a trip leaves: TRIPPED, at rest, with the other blocks as they were but for its notice. -/
theorem tripRoc_drive (r : Roc) : (tripRoc r).drive = (.tripped, 0, 0, false) ∧ (tripRoc r).kept = r.kept := by
  unfold tripRoc brakeSetStart Roc.drive Roc.kept
  dsimp only
  split <;> (try split) <;> exact ⟨rfl, rfl⟩

theorem trip_rotation (s : State) : (trip s).roc.rotation = .tripped := by
  unfold trip
  split
  · assumption
  · exact congrArg Prod.fst (tripRoc_drive s.roc).1

theorem trip_rest (s : State) : trip s = { s with roc := (trip s).roc, lkp := (trip s).lkp } := by
  unfold trip; split <;> rfl

theorem trip_ports (s : State) : ∃ ns, (trip s).lkp = s.lkp.noticed ns := by
  unfold trip
  split
  · exact ⟨[], rfl⟩
  · exact ⟨[_], rfl⟩

theorem trip_limits (s : State) : (trip s).roc.limits = s.roc.limits := by
  unfold trip
  split
  · rfl
  · show (tripRoc s.roc).limits = _
    unfold tripRoc brakeSetStart
    dsimp only
    split <;> (try split) <;> rfl

theorem trip_kept (s : State) : (trip s).roc.kept = s.roc.kept := by
  unfold trip
  split
  · rfl
  · exact (tripRoc_drive s.roc).2

/-! ### Moves and trials (R44 to R58) -/

theorem moveChanged_mild (sl : Slot) (m : Option Move) (s : State) : Mild s (moveChanged sl m s) := by
  unfold moveChanged
  cases sl <;> cases m <;> exact { ports := ⟨[_], rfl⟩ }

theorem setSlot_mild (sl : Slot) (m : Option Move) (s : State) : Mild s (setSlot sl m s) := by
  cases sl <;> exact {}

theorem moveChanged_mvu (sl : Slot) (m : Option Move) (s : State) : (moveChanged sl m s).mvu = (setSlot sl m s).mvu := by
  cases m <;> rfl

/-- A change that leaves slot B not PENDING, or slot A occupied, keeps the slots sound. -/
theorem slots_of_free {t : State} (h : t.pendingB = false) : t.slotsSound := fun k => by rw [h] at k; cases k

theorem slots_of_occupied {t : State} (h : t.occupiedA = true) : t.slotsSound := fun _ => h

/-- A slot-B record in place that is not PENDING. -/
theorem moveChanged_freeB {m : Option Move} {s : State} (h : ∀ x, m = some x → x.status ≠ .pending) :
    (moveChanged .b m s).pendingB = false := by
  unfold State.pendingB
  rw [moveChanged_mvu]
  cases m with
  | none => rfl
  | some x => exact beq_false_of_ne (h x rfl)

/-- A slot-A record in place that occupies it. -/
theorem moveChanged_occupies {m : Move} {s : State} (h : m.occupiesA = true) :
    (moveChanged .a (some m) s).occupiedA = true := by
  unfold State.occupiedA
  rw [moveChanged_mvu]
  exact h

theorem endMoves_mild (c : MoveCause) (s : State) : Mild s (endMoves c s) := by
  have first : Mild s (match s.mvu.slotA with
      | none => s
      | some m =>
        if m.occupiesA then moveChanged .a (some { m with status := .aborted, cause := some c }) (limitRemove .move s)
        else s) := by
    split
    · exact {}
    · split
      · exact (limitRemove_mild _ _).trans (moveChanged_mild _ _ _)
      · exact {}
  have second (t : State) : Mild t (match t.mvu.slotB with
      | none => t
      | some m => if m.status = .pending then moveChanged .b (some { m with status := .cancelled }) t else t) := by
    split
    · exact {}
    · split
      · exact moveChanged_mild _ _ _
      · exact {}
  exact first.trans (second _)

/-- After the moves have ended slot B is not PENDING (R51, R52). -/
theorem endMoves_freeB (c : MoveCause) (s : State) : (endMoves c s).pendingB = false := by
  unfold endMoves
  dsimp only
  split
  · next h => unfold State.pendingB; rw [h]
  · next m h =>
    split
    · exact moveChanged_freeB fun x hx => by cases hx; exact fun k => by cases k
    · next hn => unfold State.pendingB; rw [h]; exact beq_false_of_ne hn

theorem endMoves_event (c : MoveCause) (s : State) : Event s (endMoves c s) :=
  (endMoves_mild c s).event fun _ => slots_of_free (endMoves_freeB c s)

theorem abortTrial_mild (c : TrialAbort) (s : State) : Mild s (abortTrial c s) := by
  unfold abortTrial
  split
  · next h => exact { ports := ⟨[_], rfl⟩, trial := fun k => by cases k }
  · exact {}

/-- After an abort no trial measures (R58). -/
theorem abortTrial_done (c : TrialAbort) (s : State) : (abortTrial c s).mvu.trial.status ≠ .measuring := by
  unfold abortTrial
  split
  · exact fun k => by cases k
  · next h => exact h

theorem abortTrial_event (c : TrialAbort) (s : State) : Event s (abortTrial c s) :=
  (abortTrial_mild c s).event (by unfold abortTrial; split <;> exact id)

theorem moveUnitLevel_event (previous : Level) (s : State) : Event s (moveUnitLevel previous s) := by
  unfold moveUnitLevel
  split
  · exact Event.refl s
  · split
    · exact (endMoves_event _ _).trans (abortTrial_event _ _)
    · exact abortTrial_event _ _
    all_goals exact Event.refl s

/-- A change to PARK leaves no trial measuring (R58). -/
theorem moveUnitLevel_park {previous : Level} {s : State} (h : s.hlu.effective = .park) (hp : previous ≠ .park) :
    (moveUnitLevel previous s).mvu.trial.status ≠ .measuring := by
  unfold moveUnitLevel
  rw [if_neg (by rw [h]; exact hp.symm), h]
  exact abortTrial_done _ _

/-! ### A change, whole (R136, R139) -/

/-- A formed change handed to the wheel is an event: at PARK the wheel trips in it. -/
theorem handToWheel_event {s t : State} (f : Formed s t) : Event s (handToWheel s.hlu.effective t) := by
  unfold handToWheel
  have hroc : t.roc = s.roc := by rw [f.rest]
  have hcfs : t.cfs = s.cfs := by rw [f.rest]
  have hbsq : t.bsq = s.bsq := by rw [f.rest]
  have htrial : t.mvu = s.mvu := by rw [f.rest]
  have step : Quiet s (if t.hlu.effective = .park ∧ s.hlu.effective ≠ .park then trip t else t) := by
    split
    · next hp =>
      obtain ⟨ns, hn⟩ := f.ports
      obtain ⟨ms, hm⟩ := trip_ports t
      have hd : (trip t).roc.rotation = .tripped := trip_rotation t
      rw [trip_rest]
      refine ⟨by rw [f.rest], by rw [f.rest], by rw [f.rest], hcfs, by rw [f.rest], by rw [f.rest],
        (trip_kept t).trans (by rw [hroc]), .inl hd, by rw [f.rest], by rw [f.rest],
        ⟨ns ++ ms, by rw [← Lkp.noticed_noticed, ← hn]; exact hm⟩, fun i => ⟨f.holds i.holds, ?_, ?_, ?_, ?_⟩⟩
      · have hk := trip_kept t
        rw [hroc] at hk
        simp only [Roc.kept, Prod.mk.injEq] at hk
        have ha : (trip t).roc.aEff = s.roc.aEff := hk.2.1
        have hdr : (trip t).roc.drive = (.tripped, 0, 0, false) ∨ (trip t).roc = t.roc := by
          unfold trip
          split
          · exact .inr rfl
          · exact .inl (tripRoc_drive _).1
        rcases hdr with hdr | hdr
        · simp only [Roc.drive, Prod.mk.injEq] at hdr
          exact ⟨fun _ => hd, fun _ => by simp [State.wheelParked, hd], fun _ => hdr.2.1,
            by simp only [hdr.2.1, hdr.2.2.1, driveWord_zero], fun h => by simp [hdr.2.2.2] at h,
            by show (trip t).roc.vCmd ≤ _; rw [hdr.2.1]; exact Nat.zero_le _,
            by show t.cfs.speeds.aMin ≤ (trip t).roc.aEff ∧ _; rw [ha, hcfs]; exact i.wheel.decel⟩
        · refine ⟨fun _ => hd, fun _ => by simp [State.wheelParked, hd], ?_, ?_, ?_, ?_, ?_⟩
          · show _ → (trip t).roc.vCmd = 0; rw [hdr, hroc]; exact i.wheel.still
          · show (trip t).roc.driveRef = _; rw [hdr, hroc]; exact i.wheel.reference
          · show (trip t).roc.trialStep = true → _; rw [hdr, hroc]; exact i.wheel.trial
          · show (trip t).roc.vCmd ≤ t.cfs.speeds.cruise * 1000; rw [hdr, hroc, hcfs]; exact i.wheel.cruise
          · show t.cfs.speeds.aMin ≤ (trip t).roc.aEff ∧ _; rw [ha, hcfs]; exact i.wheel.decel
      · show PointsSound (trip t).roc.limits; rw [trip_limits, hroc]; exact i.points
      · show State.slotsSound _
        unfold State.slotsSound State.pendingB State.occupiedA
        show (match t.mvu.slotB with | none => _ | some m => _) = true → _
        rw [htrial]; exact i.slots
      · exact GroupsSound.congr (s := s) (by rw [← hbsq]) (by unfold State.manifests; rw [← hbsq]) i.groups
    · next hp =>
      refine ⟨by rw [f.rest], by rw [f.rest], by rw [f.rest], hcfs, by rw [f.rest], by rw [f.rest], by rw [hroc],
        .inr (by rw [hroc]), by rw [f.rest], by rw [hbsq], f.ports, fun i => ⟨f.holds i.holds, ?_, by rw [hroc]; exact i.points, ?_, ?_⟩⟩
      · refine ⟨?_, ?_, ?_, ?_, ?_, ?_, ?_⟩
        · intro he
          rw [hroc]
          exact i.wheel.park (Classical.byContradiction fun hn => hp ⟨he, hn⟩)
        · rw [hcfs, State.wheelParked, hroc]; exact i.wheel.config
        · rw [hroc]; exact i.wheel.still
        · rw [hroc]; exact i.wheel.reference
        · rw [hroc]; exact i.wheel.trial
        · rw [hroc, hcfs]; exact i.wheel.cruise
        · rw [hroc, hcfs]; exact i.wheel.decel
      · unfold State.slotsSound State.pendingB State.occupiedA
        rw [htrial]; exact i.slots
      · exact GroupsSound.congr (by rw [hbsq]) (by unfold State.manifests; rw [hbsq]) i.groups
  refine ⟨step.trans (moveUnitLevel_event _ _).toQuiet, fun m => ?_⟩
  by_cases hp : t.hlu.effective = .park ∧ s.hlu.effective ≠ .park
  · refine absurd m ?_
    rw [if_pos hp]
    exact moveUnitLevel_park (by rw [trip_rest]; exact hp.1) hp.2
  · rw [if_neg hp] at m ⊢
    have h := (moveUnitLevel_event s.hlu.effective t).trial m
    rw [htrial, hroc] at h
    exact h

theorem boarding_admits (s : State) : Admits .boarding .stop s :=
  ⟨trivial, by decide, by intro p h; cases p <;> exact absurd h (by decide)⟩

theorem bringHomeHandOver_event (s : State) : Event s (bringHomeHandOver s) := by
  unfold bringHomeHandOver
  split
  · exact handToWheel_event ((holdFormInsert_formed (boarding_admits s)).notify _)
  · exact handToWheel_event (holdFormRemove_formed _ _)
  · exact Event.refl s

theorem bringHomeJudge_event (s : State) : Event s (bringHomeJudge s) := by
  unfold bringHomeJudge
  split
  · exact (handToWheel_event (holdFormInsert_formed (boarding_admits s))).trans (notify_event _ _)
  · exact handToWheel_event (holdFormRemove_formed _ _)
  · exact Event.refl s

/-- A removal is an event, whatever its identity (R136). -/
theorem holdRemove_event (id : HoldId) (s : State) : Event s (holdRemove id s) := by
  unfold holdRemove
  split
  · exact (handToWheel_event (holdFormRemove_formed _ _)).trans (bringHomeHandOver_event _)
  · exact Event.refl s

/-- An insertion or replacement is an event (R136): its identity is legal, and a station's new entry is at most its fourth. -/
theorem holdInsert_event {id : HoldId} {v : Level} {s : State} (hl : id.legal)
    (hs : ∀ p : Port, id.ofStation p = true → id ∉ s.hlu.entries.map HoldEntry.id → s.stationCount p < 4) :
    Event s (holdInsert id v s) := by
  unfold holdInsert
  split
  · exact holdRemove_event _ _
  · next hv => exact (handToWheel_event (holdFormInsert_formed ⟨hl, hv, hs⟩)).trans (bringHomeHandOver_event _)

/-- An identity of the part's own blocks. -/
theorem ownId_station {id : HoldId} (h : ∀ r, id ≠ .controlRoom r ∧ id ≠ .platformDesk r) (p : Port) :
    id.ofStation p = false := by
  unfold HoldId.ofStation
  rw [List.any_eq_false]
  intro r _
  cases p
  · simpa [stationHold] using (h r).1
  · simpa [stationHold] using (h r).2

theorem holdInsert_own {id : HoldId} (v : Level) (s : State) (hl : id.legal)
    (h : ∀ r, id ≠ .controlRoom r ∧ id ≠ .platformDesk r) : Event s (holdInsert id v s) :=
  holdInsert_event hl fun p hp => by rw [ownId_station h p] at hp; exact absurd hp (by decide)

theorem holdInsert_wind (v : Level) (s : State) : Event s (holdInsert .wind v s) :=
  holdInsert_own v s trivial fun _ => ⟨by simp, by simp⟩

theorem holdInsert_balance (v : Level) (s : State) : Event s (holdInsert .balance v s) :=
  holdInsert_own v s trivial fun _ => ⟨by simp, by simp⟩

theorem holdInsert_inputs (g : GroupId) (v : Level) (s : State) : Event s (holdInsert (.inputs g) v s) :=
  holdInsert_own v s trivial fun _ => ⟨by simp, by simp⟩

theorem holdInsert_fault (b : BankId) (v : Level) (s : State) : Event s (holdInsert (.fault b) v s) :=
  holdInsert_own v s trivial fun _ => ⟨by simp, by simp⟩

theorem holdInsert_link (p : Port) (v : Level) (s : State) : Event s (holdInsert (.link p) v s) :=
  holdInsert_own v s trivial fun _ => ⟨by simp, by simp⟩

end Sys2Proof.Machine
end

