-- ==== Sys2Proof/Laws/Blocks.lean ====
section
/-! SUPPORT. The operations of the Boarding Sequencer, the Fault Bank Unit, the Move Unit and the Cabin Ring Unit as events:
one lemma each. -/

namespace Sys2Proof.Machine

/-! ### Cabins (R81, R95 to R97, R111 to R115) -/

theorem slowInsert_event (k : Nat) (s : State) : Event s (slowInsert k s) :=
  limitInsert_event fun h => absurd h Bool.false_ne_true

theorem slowJudge_event (s : State) : Event s (slowJudge s) := by
  unfold slowJudge
  repeat' split
  all_goals first | exact Event.refl _ | exact slowInsert_event _ _ | exact limitRemove_event _ _

theorem slowTarget_mild (t : Option Nat) (s : State) :
    Mild s { s with bsq := { s.bsq with slowTarget := t, slowCrossed := false } } := {}

theorem slowChoose_event (s : State) : Event s (slowChoose s) := by
  unfold slowChoose
  dsimp only
  refine (slowTarget_mild s.nextRelease s).event.trans ?_
  split
  · exact limitRemove_event _ _
  · split
    · exact slowInsert_event _ _
    · exact limitRemove_event _ _

theorem settleCabins_event (before s : State) : Event s (settleCabins before s) := by
  unfold settleCabins
  dsimp only
  split
  · exact slowJudge_event s
  · exact (slowJudge_event s).trans (bringHomeJudge_event _)

theorem serviceChange_event {k : Nat} {c : Cabin} {s : State} (cause : ServiceCause)
    (h : c.manifest = (s.cabin k).manifest) : Event s (serviceChange k c cause s) := by
  unfold serviceChange
  dsimp only
  refine (setCabin_event h).trans ?_
  split
  · exact slowJudge_event _
  · exact (notify_event _ _).trans (slowJudge_event _)

theorem cabinFault_event (code : FaultCode) (k : Nat) (s : State) : Event s (cabinFault code k s) :=
  serviceChange_event _ (by rfl)

theorem balanceJudge_event (s : State) : Event s (balanceJudge s) := by
  unfold balanceJudge
  split
  · split
    · exact holdRemove_event _ _
    · exact Event.refl s
  · split
    · exact holdInsert_balance _ _
    · exact Event.refl s

theorem formSums_event (s : State) : Event s (formSums s) := by
  unfold formSums
  exact Event.trans (t := { s with bsq := { s.bsq with
    sumX := s.formX, sumY := s.formY, sumQ := s.formX * s.formX + s.formY * s.formY } })
    (Mild.event {}) (balanceJudge_event _)

/-! ### Reports (R156) -/

theorem report_event (code : FaultCode) (subject : Option Nat) (s : State) : Event s (report code subject s) := by
  have noticed (c : Bool) (n : Notice) (t : State) : Event t (if c = true then notify n t else t) :=
    Event.ite (notify_event n t) (Event.refl t)
  have marked (t : State) : Event t (match code.scope, subject with
      | .cabin, some k => cabinFault code k t
      | _, _ => t) := by
    split
    · exact cabinFault_event _ _ _
    · exact Event.refl _
  have held (b n : Bank) (t : State) : Event t (match n.hold with
      | none => t
      | some a => if n.hold = b.hold then t else holdInsert (.fault code.bank) a.level t) := by
    split
    · exact Event.refl _
    · exact Event.ite (Event.refl _) (holdInsert_fault _ _ _)
  unfold report
  dsimp only
  split
  · exact Event.refl s
  · exact (setBank_event _ _ _).trans ((noticed _ _ _).trans ((noticed _ _ _).trans ((marked _).trans (held _ _ _))))

/-! ### Moves (R44 to R50, R94) -/

theorem activate_mild (m : Move) (s : State) : Mild s (activate m s) := by
  unfold activate
  dsimp only
  exact (limitInsert_mild (o := .move) fun h => absurd h Bool.false_ne_true).trans (moveChanged_mild _ _ _)

theorem activate_event (m : Move) (s : State) : Event s (activate m s) :=
  (activate_mild m s).event fun _ => slots_of_occupied (moveChanged_occupies rfl)

theorem promote_mild (s : State) : Mild s (promote s) := by
  unfold promote
  split
  · exact {}
  · split
    · exact (activate_mild _ _).trans (moveChanged_mild _ _ _)
    · exact {}

/-- After a promotion slot B is not PENDING (R47). -/
theorem promote_freeB (s : State) : (promote s).pendingB = false := by
  unfold promote
  split
  · next h => unfold State.pendingB; rw [h]
  · next m h =>
    split
    · exact moveChanged_freeB fun x hx => by cases hx
    · next hn => unfold State.pendingB; rw [h]; exact beq_false_of_ne hn

theorem finishA_event (m : Move) (s : State) : Event s (finishA m s) :=
  ((limitRemove_mild _ _).trans ((moveChanged_mild _ _ _).trans (promote_mild _))).event
    fun _ => slots_of_free (promote_freeB _)

theorem submitMove_event {kind : MoveKind} {origin : MoveOrigin} {s t : State} {sl : Slot} {m : Move}
    (h : submitMove kind origin s = .accepted sl m t) : Event s t := by
  unfold submitMove at h
  dsimp only at h
  have counted : Event s { s with mvu := { s.mvu with nextNumber := nextMoveNumber s.mvu.nextNumber } } := Mild.event {}
  split at h
  · exact absurd h (by simp)
  · split at h
    · exact absurd h (by simp)
    · split at h
      · simp only [Submission.accepted.injEq] at h
        rw [← h.2.2]; exact counted.trans (activate_event _ _)
      · next ho =>
        split at h
        · simp only [Submission.accepted.injEq] at h
          rw [← h.2.2]
          exact counted.trans ((moveChanged_mild _ _ _).event fun _ => slots_of_occupied (by
            unfold State.occupiedA
            rw [moveChanged_mvu]
            show s.occupiedA = true
            simpa using ho))
        · exact absurd h (by simp)

theorem cancelMove_event {n : Nat} {s t : State} (h : cancelMove n s = .done t) : Event s t := by
  unfold cancelMove at h
  repeat' split at h
  all_goals first
    | exact absurd h MoveAnswer.noConfusion
    | (simp only [MoveAnswer.done.injEq] at h; rw [← h]; first
        | exact finishA_event _ _
        | exact (moveChanged_mild _ _ _).event fun _ => slots_of_free (moveChanged_freeB fun x hx => by
            cases hx; exact fun k => by cases k))

theorem resumeMove_event {n : Nat} {s t : State} (h : resumeMove n s = .done t) : Event s t := by
  unfold resumeMove at h
  repeat' split at h
  all_goals first
    | exact absurd h MoveAnswer.noConfusion
    | (simp only [MoveAnswer.done.injEq] at h; rw [← h]; exact finishA_event _ _)

theorem giveUpMove_event (k : Nat) (s : State) : Event s (giveUpMove k s) := by
  unfold giveUpMove
  repeat' split
  · exact Event.refl s
  · cases h : resumeMove _ s with
    | refused r => exact Event.refl s
    | done t => exact resumeMove_event h
  · cases h : cancelMove _ s with
    | refused r => exact Event.refl s
    | done t => exact cancelMove_event h
  · exact Event.refl s

/-- A trial that completes may lower a_eff: it is no inner event, but keeps the invariants and all else (R57). -/
theorem startTrial_drive (s : State) : (startTrial s).roc.drive = (s.roc.rotation, 0, 0, true) := rfl

/-! ### One pass (R79 to R93) -/

theorem queueCommand_event (k : Nat) (c : DoorCommand) (s : State) : Event s (queueCommand k c s) := setNode_event (by rfl)

theorem setPhase_event (k : Nat) (ph : Phase) (s : State) : Event s (setPhase k ph s) := by
  unfold setPhase
  dsimp only
  split
  · exact setCabin_event (by rfl)
  · exact (setCabin_event (by rfl)).trans (setNode_event (by rfl))

theorem removeDoor_event (k : Nat) (s : State) : Event s (removeDoor k s) :=
  Event.ite ((limitRemove_event _ _).trans (bringHomeJudge_event _)) (Event.refl s)

theorem lockGate_event (k : Nat) (s : State) : Event s (lockGate k s) := Mild.event {}

/-- An admission's move of the head's id from the queue to the manifest (R86, R107). -/
theorem seat_event {k : Nat} {g : Group} {rest : List Group} {m : Manifest} {s : State}
    (hq : s.bsq.queue = g :: rest) (hm : m.id = g.id) :
    Event s (setCabin k { s.cabin k with manifest := some m, admittedThisPass := true, lastPass := some .admitted }
      { s with bsq := { s.bsq with queue := rest, gate := some k } }) := by
  refine ⟨⟨rfl, rfl, rfl, rfl, rfl, rfl, rfl, .inr rfl, rfl, length_setNth _ _ _, ⟨[], rfl⟩, fun i =>
    ⟨i.holds, ?_, i.points, i.slots, ?_⟩⟩, fun m => ⟨m, rfl⟩⟩
  · exact WheelSound.congr (s := s) rfl rfl rfl rfl rfl i.wheel
  · refine ⟨?_, ?_⟩
    · have := i.groups.bound; rw [hq] at this; exact Nat.le_of_succ_le this
    · have hd := i.groups.distinct
      rw [State.heldIds_eq, hq] at hd
      rw [State.heldIds_eq, manifests_setCabin]
      show (rest.map Group.id ++ (setNth s.manifests k (some m)).filterMap _).Nodup
      generalize s.manifests = l at hd
      rw [List.map_cons, List.cons_append, List.nodup_cons] at hd
      have sub : ∀ (l : List (Option Manifest)) (k : Nat),
          (((setNth l k (some m)).filterMap fun x => x.map Manifest.id).Sublist
            (l.filterMap fun x => x.map Manifest.id)) ∨
          ∃ a b, (setNth l k (some m)).filterMap (fun x => x.map Manifest.id) = a ++ m.id :: b ∧
            (a ++ b).Sublist (l.filterMap fun x => x.map Manifest.id) := by
        intro l k
        cases k with
        | zero => exact .inl (List.Sublist.refl _)
        | succ k =>
          show ((l.set k (some m)).filterMap _).Sublist _ ∨ ∃ a b, (l.set k (some m)).filterMap _ = _ ∧ _
          induction l generalizing k with
          | nil => exact .inl (List.Sublist.refl _)
          | cons x l ih =>
            cases k with
            | zero =>
              refine .inr ⟨[], l.filterMap fun x => x.map Manifest.id, rfl, ?_⟩
              cases x
              · exact List.Sublist.refl _
              · exact List.Sublist.cons _ (List.Sublist.refl _)
            | succ k =>
              rcases ih k with h | ⟨a, b, h, hs⟩
              · left
                cases x
                · exact h
                · exact List.Sublist.cons_cons _ h
              · right
                cases x with
                | none => exact ⟨a, b, h, hs⟩
                | some y => exact ⟨y.id :: a, b, by simp [h], List.Sublist.cons_cons _ hs⟩
      rcases sub l k with h | ⟨a, b, h, hs⟩
      · exact hd.2.sublist (List.Sublist.append (List.Sublist.refl _) h)
      · rw [h, ← List.append_assoc, List.perm_middle.nodup_iff, List.nodup_cons, hm]
        have hsub : (rest.map Group.id ++ a ++ b).Sublist (rest.map Group.id ++ l.filterMap fun x => x.map Manifest.id) := by
          rw [List.append_assoc]; exact List.Sublist.append (List.Sublist.refl _) hs
        exact ⟨fun hx => hd.1 (hsub.subset hx), hd.2.sublist hsub⟩

theorem admit_event {k : Nat} {g : Group} {rest : List Group} {s : State} (hq : s.bsq.queue = g :: rest) :
    Event s (admitGroup k g rest s) := by
  unfold admitGroup
  dsimp only
  exact (seat_event (m := s.manifestOf g) hq rfl).trans ((notify_event _ _).trans
    ((Event.ite (notify_event _ _) (Event.refl _)).trans ((settleCabins_event _ _).trans
      (Event.ite (Event.refl _) (giveUpMove_event _ _)))))

theorem evaluateFails_event (k : Nat) (s : State) : Event s (evaluateFails k s) := by
  unfold evaluateFails
  repeat' split
  all_goals first | exact Event.refl s | exact giveUpMove_event _ _

theorem evaluate_event (k : Nat) (s : State) : Event s (evaluate k s) := by
  unfold evaluate
  split
  · exact evaluateFails_event _ _
  · next g rest hq => exact Event.ite (admit_event hq) (evaluateFails_event _ _)

theorem changeToLoading_event (k : Nat) (s : State) : Event s (changeToLoading k s) :=
  (clearManifest_event k s).trans ((setPhase_event _ _ _).trans ((settleCabins_event _ _).trans (evaluate_event _ _)))

theorem boardingMove_mild (b : Option BoardingMove) (s : State) : Mild s { s with bsq := { s.bsq with boardingMove := b } } :=
  {}

theorem submitStop_event (k : Nat) (s : State) : Event s (submitStop k s) := by
  unfold submitStop
  split
  · exact Event.refl s
  · next h => exact (submitMove_event h).trans (boardingMove_mild _ _).event

theorem crossA_event (k : Nat) (s : State) : Event s (crossA k s) := by
  unfold crossA
  dsimp only
  exact (setCabin_event (by rfl)).trans ((Event.ite (setPhase_event _ _ _) (Event.refl _)).trans
    ((Event.ite (submitStop_event _ _) (Event.refl _)).trans (slowChoose_event _)))

/-- A release that is not refused for want of room adds no fifth DOOR entry (R31, R82). -/
theorem releaseFailure_room {k : Nat} {s : State} (h : s.releaseFailure k = none) : s.doorRefused k = false := by
  unfold State.releaseFailure at h
  repeat' split at h
  all_goals first | (cases h; done) | skip
  next hd => simpa using hd

theorem releaseDoor_event {k : Nat} {s : State} (h : s.doorRefused k = false) : Event s (releaseDoor k s) :=
  (limitInsert_event fun _ hn => by
    have hd : s.hasDoor k = false := by rw [State.hasDoor_eq]; exact decide_eq_false hn
    simpa [State.doorRefused, hd] using h).trans ((setPhase_event _ _ _).trans ((setCabin_event (by rfl)).trans (queueCommand_event _ _ _)))

theorem makePassing_event (k : Nat) (c : SubCause) (s : State) : Event s (makePassing k c s) :=
  (setPhase_event _ _ _).trans (setCabin_event (by rfl))

theorem refuseRelease_event (k : Nat) (c : SubCause) (s : State) : Event s (refuseRelease k c s) :=
  (makePassing_event k c s).trans ((Event.ite (report_event _ _ _) (Event.refl _)).trans (giveUpMove_event _ _))

theorem crossD_event (k : Nat) (s : State) : Event s (crossD k s) := by
  unfold crossD
  refine (abortTrial_event .doorRelease s).trans ?_
  dsimp only
  split
  · next h => exact releaseDoor_event (releaseFailure_room h)
  · exact refuseRelease_event _ _ _

theorem closeCabin_event (k : Nat) (s : State) : Event s (closeCabin k s) :=
  (lockGate_event k s).trans ((queueCommand_event _ _ _).trans ((setPhase_event _ _ _).trans
    ((Event.ite (Event.refl _) (setCabin_event (by rfl))).trans (giveUpMove_event _ _))))

theorem closeUnloading_event (k : Nat) (s : State) : Event s (closeUnloading k s) :=
  (clearManifest_event k s).trans ((settleCabins_event _ _).trans (closeCabin_event _ _))

theorem requalify_event (k : Nat) (s : State) : Event s (requalify k s) :=
  Event.ite (serviceChange_event _ (by rfl)) (Event.refl s)

theorem depart_event (k : Nat) (s : State) : Event s (depart k s) :=
  (lockGate_event k s).trans ((setPhase_event _ _ _).trans ((setCabin_event (by rfl)).trans ((requalify_event _ _).trans
    ((notify_event _ _).trans (giveUpMove_event _ _)))))

theorem crossX_event (k : Nat) (s : State) : Event s (crossX k s) :=
  Event.ite (setCabin_event (by rfl)) (depart_event _ _)

theorem crossEffect_event (k : Nat) (ln : PlatformLine) (s : State) : Event s (crossEffect k ln s) := by
  unfold crossEffect
  split
  · exact crossD_event _ _
  · exact changeToLoading_event _ _
  · exact closeCabin_event _ _
  · exact closeUnloading_event _ _
  · exact crossX_event _ _
  · exact crossX_event _ _
  · exact crossX_event _ _
  · exact (closeCabin_event _ _).trans (crossX_event _ _)
  · exact (closeCabin_event _ _).trans (crossX_event _ _)
  · exact (makePassing_event _ _ _).trans (crossX_event _ _)
  · exact Event.refl s

theorem crossing_event (k : Nat) (ln : PlatformLine) (s : State) : Event s (crossing k ln s) :=
  Event.ite (crossA_event _ _) (crossEffect_event _ _ _)

theorem lockReport_event (k : Nat) (s : State) : Event s (lockReport k s) :=
  (setCabin_event (by rfl)).trans ((removeDoor_event _ _).trans (Event.ite (depart_event _ _) (Event.refl _)))

theorem closeProgress_event (k : Nat) (c : RingCommand) (d : Door) (s : State) : Event s (closeProgress k c d s) := by
  unfold closeProgress
  dsimp only
  split
  · exact (setCabin_event (by rfl)).trans (Event.ite (lockReport_event _ _) (Event.refl _))
  · exact Event.refl s

theorem seedPhase_event (k : Nat) (s : State) : Event s (seedPhase k s) := by
  unfold seedPhase
  dsimp only
  split
  · split
    · exact (setPhase_event _ _ _).trans (setCabin_event (by rfl))
    · exact (makePassing_event _ _ _).trans (queueCommand_event _ _ _)
    · exact (makePassing_event _ _ _).trans (queueCommand_event _ _ _)
    · exact (makePassing_event _ _ _).trans (queueCommand_event _ _ _)
    · exact Event.ite (depart_event _ _) (Event.refl s)
    · exact Event.ite (depart_event _ _) (Event.refl s)
  · exact Event.foldl _ (fun s ln => crossEffect_event k ln s) _ _

theorem seedPhases_event (s : State) : Event s (seedPhases s) :=
  (Event.foldl _ (fun s k => seedPhase_event k s) _ _).trans (slowChoose_event _)

theorem doorHold_event (k : Nat) (r : Int) (s : State) : Event s (doorHold k r s) :=
  (setPhase_event _ _ _).trans ((setCabin_event (by rfl)).trans ((report_event _ _ _).trans (notify_event _ _)))

theorem enterDoorHolds_event (curve : LimitPoint → Nat) (s : State) : Event s (enterDoorHolds curve s) := by
  refine Event.foldl _ (fun t e => ?_) _ _
  split
  · exact Event.ite (doorHold_event _ _ _) (Event.refl _)
  · exact Event.refl _
  · exact Event.refl _

theorem addNotice_event (n : Nat) (s : State) : Event s (addNotice n s) :=
  Event.ite (notify_event _ _) (Event.ite (notify_event _ _) (Event.refl _))

end Sys2Proof.Machine
end

