-- ==== Sys2Proof/Laws/Updates.lean ====
section
/-! SUPPORT. The control update, the ring's transactions, the wind sample, the platform inputs, the field lines and timers, and
the requests' effects: what each leaves as it was, and that each keeps the invariants. -/

-- One theorem at a time: elaborated side by side, the waiting ones each hold a thread, and the joined text outgrows its memory.
set_option Elab.async false

namespace Sys2Proof.Machine

/-! ### The relation -/

/-- A part of an effect: configuration, clock, time base and queue stay, the ports change by notices alone, the invariants
hold on. -/
structure Calm (s t : State) : Prop where
  cfs : t.cfs = s.cfs
  time : t.time = s.time
  pending : t.pending = s.pending
  ports : ∃ ns, t.lkp = s.lkp.noticed ns
  inner : Inner s → Inner t

/-- An effect, which also keeps a trial under its trial step. -/
structure Effect (s t : State) : Prop extends Calm s t where
  trial : s.trialSound → t.trialSound

/-- An update of fields that no invariant reads, but for what it shows to be kept. -/
structure Light (s t : State) : Prop where
  cfs : t.cfs = s.cfs := by rfl
  time : t.time = s.time := by rfl
  pending : t.pending = s.pending := by rfl
  hlu : t.hlu = s.hlu := by rfl
  drive : t.roc.drive = s.roc.drive := by rfl
  aEff : t.roc.aEff = s.roc.aEff := by rfl
  points : PointsSound s.roc.limits → PointsSound t.roc.limits := by exact fun h => h
  slots : s.slotsSound → t.slotsSound := by exact fun h => h
  trial : s.trialSound → t.trialSound := by exact fun h => h
  queue : t.bsq.queue = s.bsq.queue := by rfl
  manifests : t.manifests = s.manifests := by rfl
  lkp : t.lkp = s.lkp := by rfl

theorem Calm.refl (s : State) : Calm s s := ⟨rfl, rfl, rfl, ⟨[], rfl⟩, id⟩

theorem Calm.trans {s t u : State} (h : Calm s t) (k : Calm t u) : Calm s u := by
  refine ⟨k.cfs.trans h.cfs, k.time.trans h.time, k.pending.trans h.pending, ?_, k.inner ∘ h.inner⟩
  obtain ⟨ns, hn⟩ := h.ports
  obtain ⟨ms, hm⟩ := k.ports
  exact ⟨ns ++ ms, by rw [hm, hn, Lkp.noticed_noticed]⟩

theorem Effect.refl (s : State) : Effect s s := ⟨.refl s, id⟩

theorem Effect.trans {s t u : State} (h : Effect s t) (k : Effect t u) : Effect s u :=
  ⟨h.toCalm.trans k.toCalm, k.trial ∘ h.trial⟩

theorem Event.effect {s t : State} (h : Event s t) : Effect s t :=
  ⟨⟨h.cfs, h.time, h.pending, h.ports, h.inner⟩, h.trialSound⟩

theorem Light.effect {s t : State} (h : Light s t) : Effect s t :=
  ⟨⟨h.cfs, h.time, h.pending, ⟨[], by rw [h.lkp]; rfl⟩, fun i =>
    ⟨by rw [h.hlu]; exact i.holds, i.wheel.congr h.hlu h.drive (by rw [h.cfs]) (by rw [h.cfs]) h.aEff, h.points i.points,
      h.slots i.slots, i.groups.congr h.queue h.manifests⟩⟩, h.trial⟩

theorem Effect.ite {s t u : State} {c : Prop} [Decidable c] (h : Effect s t) (k : Effect s u) :
    Effect s (if c then t else u) := by
  split
  · exact h
  · exact k

theorem Effect.foldl {α : Type} (f : State → α → State) (hf : ∀ s a, Effect s (f s a)) (l : List α) :
    ∀ s, Effect s (l.foldl f s) := by
  induction l with
  | nil => exact Effect.refl
  | cons a l ih => exact fun s => (hf s a).trans (ih _)

theorem report_effect (c : FaultCode) (k : Option Nat) (s : State) : Effect s (report c k s) := (report_event c k s).effect

/-! ### The Position Tracker (R3 to R14, R32) -/

theorem settleUpdate_light (s : State) : Light s (settleUpdate s) :=
  { points := fun h => h.of_origins (by
      show List.map _ (List.map _ _) = _
      rw [List.map_map]; rfl) }

theorem encoderReports_event (p : Ptr) (s : State) : Event s (encoderReports p s) :=
  (Event.ite (report_event _ _ _) (Event.refl _)).trans
    ((Event.ite (report_event _ _ _) (Event.refl _)).trans (Event.ite (report_event _ _ _) (Event.refl _)))

theorem seedAll_effect (s : State) : Effect s (seedAll s) :=
  (Light.effect (t := seedRecords s) {}).trans (Effect.ite (seedPhases_event _).effect (Effect.refl _))

theorem clearLeavers_effect (s : State) : Effect s (clearLeavers s) :=
  Effect.foldl _ (fun _ _ => Effect.ite (Light.effect {}) (Effect.refl _)) _ _

theorem noteSlowCrossed_effect (k : Nat) (ln : PlatformLine) (s : State) : Effect s (noteSlowCrossed k ln s) :=
  Effect.ite (Light.effect {}) (Effect.refl s)

theorem raiseCrossing_effect (k : Nat) (s : State) (ln : PlatformLine) : Effect s (raiseCrossing k s ln) :=
  Effect.ite
    ((Light.effect (t := setPassRecord k (some ln) s) {}).trans
      ((noteSlowCrossed_effect _ _ _).trans (crossing_event _ _ _).effect))
    (Effect.refl s)

theorem raiseCabin_effect (before : Nat) (s : State) (k : Nat) : Effect s (raiseCabin before s k) :=
  Effect.foldl _ (fun s ln => raiseCrossing_effect k s ln) _ _

theorem raiseCrossings_effect (before : Nat) (s : State) : Effect s (raiseCrossings before s) :=
  Effect.foldl _ (fun s k => raiseCabin_effect before s k) _ _

theorem passUpdate_effect (before : Ptr) (s : State) : Effect s (passUpdate before s) :=
  (Effect.ite (seedAll_effect s) (Effect.ite (raiseCrossings_effect _ _) (Effect.refl s))).trans (clearLeavers_effect _)

theorem overrunEntry_effect (s : State) (e : LimitPoint) : Effect s (overrunEntry s e) := by
  unfold overrunEntry
  split
  · exact Effect.ite ((markOverrun_event _ _).effect.trans (report_effect _ _ _)) (Effect.refl s)
  · exact Effect.refl s
  · exact Effect.refl s

theorem overrunCheck_effect (s : State) : Effect s (overrunCheck s) := Effect.foldl _ overrunEntry_effect _ _

theorem updateWheel_effect (s : State) : Effect s (updateWheel s) :=
  ((settleUpdate_light s).effect.trans (encoderReports_event _ _).effect).trans
    ((passUpdate_effect _ _).trans (overrunCheck_effect _))

/-! ### The Rotation Controller's step (R20 to R25) -/

/-- A wheel that is not TRIPPED is not at PARK. -/
theorem WheelSound.not_park {s : State} (w : WheelSound s) (h : s.roc.rotation ≠ .tripped) : s.hlu.effective ≠ .park :=
  fun k => h (w.park k)

/-- A Rotation Controller in place that the invariants of the wheel allow. -/
theorem withRoc_calm {s : State} {r : Roc} (h : Inner s → WheelSound { s with roc := r })
    (hl : r.limits = s.roc.limits := by rfl) : Calm s { s with roc := r } :=
  ⟨rfl, rfl, rfl, ⟨[], rfl⟩, fun i => ⟨i.holds, h i, by show PointsSound r.limits; rw [hl]; exact i.points, i.slots,
    GroupsSound.congr (s := s) rfl rfl i.groups⟩⟩

theorem withRoc_effect {s : State} {r : Roc} (h : Inner s → WheelSound { s with roc := r })
    (hl : r.limits = s.roc.limits := by rfl) (ht : r.trialStep = s.roc.trialStep := by rfl) :
    Effect s { s with roc := r } :=
  ⟨withRoc_calm h hl, fun i m => by show r.trialStep = true; rw [ht]; exact i m⟩

/-- A wheel outside PARK that turns under these conditions is sound. -/
theorem turned_sound {s : State} {r : Roc} (w : WheelSound s) (hn : s.roc.rotation ≠ .tripped)
    (hc : s.cfs.device = .config → r.rotation = .braked ∨ r.rotation = .tripped)
    (hs : r.rotation ≠ .running → r.vCmd = 0) (hr : r.driveRef = driveWord r.vCmd)
    (ht : r.trialStep = true → r.rotation = .running ∧ r.vCmd = 0)
    (hv : r.vCmd ≤ s.roc.vCmd ∨ r.vCmd ≤ s.cfs.speeds.cruise * 1000 := by exact .inl (Nat.le_refl _))
    (ha : r.aEff = s.roc.aEff := by rfl) : WheelSound { s with roc := r } :=
  ⟨fun k => absurd k (w.not_park hn), fun k => by simpa [State.wheelParked] using hc k, hs, hr, ht,
    hv.elim (fun k => Nat.le_trans k w.cruise) id, by show s.cfs.speeds.aMin ≤ r.aEff ∧ _; rw [ha]; exact w.decel⟩

theorem notConfig {s : State} (w : WheelSound s) (h1 : s.roc.rotation ≠ .braked) (h2 : s.roc.rotation ≠ .tripped) :
    s.cfs.device ≠ .config := fun k => by
  have := w.config k
  simp [State.wheelParked, h1, h2] at this

theorem releaseWanted_service {s : State} {v : Nat} (h : s.releaseWanted v = true) : s.cfs.device = .service := by
  simp only [State.releaseWanted, Bool.and_eq_true, beq_iff_eq] at h
  exact h.1.1.2

/-- What a release leaves of the Rotation Controller. -/
def Roc.resting (r : Roc) : Nat × Nat × Bool × Nat × List LimitPoint := (r.vCmd, r.driveRef, r.trialStep, r.aEff, r.limits)

theorem brakeReleasedArrives_rest (r : Roc) : (brakeReleasedArrives r).resting = r.resting := by
  unfold brakeReleasedArrives
  split <;> rfl

theorem release_rest (r : Roc) : (release r).resting = r.resting := by
  unfold release
  dsimp only
  split
  · exact brakeReleasedArrives_rest _
  · rfl

/-- The release decision of an update in BRAKED (R20). -/
theorem brakedRelease_effect {u : State} {v : Nat} (hur : u.roc.rotation = .braked) :
    Effect u (if u.releaseWanted v then
        (if u.roc.driveReady then { u with roc := release u.roc }
          else { u with roc := { u.roc with waitingDriveReady := true } })
      else { u with roc := { u.roc with waitingDriveReady := false } }) := by
  split
  · next hw =>
    have hsv := releaseWanted_service hw
    split
    · have rest := release_rest u.roc
      simp only [Roc.resting, Prod.mk.injEq] at rest
      refine withRoc_effect (fun i => ?_) rest.2.2.2.2 rest.2.2.1
      have h0 := i.wheel.still (by simp [hur])
      have h1 := i.wheel.reference
      have h2 : u.roc.trialStep = false := by
        cases h : u.roc.trialStep
        · rfl
        · have := (i.wheel.trial h).1; simp [hur] at this
      have hd : (release u.roc).vCmd = 0 ∧ (release u.roc).driveRef = driveWord (release u.roc).vCmd
          ∧ (release u.roc).trialStep = false := by
        rw [rest.1, rest.2.1, rest.2.2.1]
        exact ⟨h0, h1, h2⟩
      exact turned_sound i.wheel (by simp [hur]) (fun k => by simp [hsv] at k) (fun _ => hd.1) hd.2.1
        (fun h => by simp [hd.2.2] at h) (.inl (Nat.le_of_eq rest.1)) rest.2.2.2.1
    · exact Light.effect {}
  · exact Light.effect {}

theorem brakedStep_effect {s : State} (hr : s.roc.rotation = .braked) : Effect s (brakedStep s) := by
  have base : Effect s (withTarget (s.reportedTarget 0) { s with roc := { s.roc with driveRef := 0 } }) :=
    withRoc_effect fun i => turned_sound i.wheel (by simp [hr]) (fun _ => .inl hr) i.wheel.still
      (by show 0 = driveWord s.roc.vCmd; rw [i.wheel.still (by simp [hr])]; rfl) i.wheel.trial
  exact base.trans (brakedRelease_effect hr)

theorem enterStanding_calm {v : Nat} {s : State} (hr : s.roc.rotation = .running) (hv : s.roc.vCmd = 0) :
    Calm s (enterStanding v s) := by
  refine Calm.trans (t := { s with roc := { s.roc with rotation := .standing, standTimer := some 0, driveRef := 0, trialStep := false } }) ?_
    (enterDoorHolds_event _ _).effect.toCalm
  exact withRoc_calm fun i => turned_sound i.wheel (by simp [hr])
    (fun k => absurd k (notConfig i.wheel (by simp [hr]) (by simp [hr]))) (fun _ => hv)
    (by show 0 = driveWord s.roc.vCmd; rw [hv]; rfl) (fun h => by simp at h)

/-- Outside a trial step the passage to STANDING finds no trial measuring. -/
theorem enterStanding_effect {v : Nat} {s : State} (hr : s.roc.rotation = .running) (hv : s.roc.vCmd = 0)
    (ht : s.roc.trialStep = false) : Effect s (enterStanding v s) :=
  ⟨enterStanding_calm hr hv, fun i m => by
    have h := (enterDoorHolds_event _ _).trial m
    have := i h.1
    rw [ht] at this
    cases this⟩

/-! ### The speed target (R28) -/

theorem leastTerm_le {l : List (Nat × LimitingTerm)} {t : Nat × LimitingTerm} (h : t ∈ l) : (leastTerm l).1 ≤ t.1 := by
  induction l with
  | nil => exact absurd h List.not_mem_nil
  | cons a l ih =>
    cases l with
    | nil => rw [List.mem_singleton] at h; subst h; exact Nat.le_refl _
    | cons b l =>
      simp only [leastTerm, lesserTerm]
      rcases List.mem_cons.mp h with rfl | h
      · split
        · exact Nat.le_refl _
        · next hn => exact Nat.le_of_lt (Nat.lt_of_not_le hn)
      · have := ih h
        split
        · next hl => exact Nat.le_trans hl this
        · exact this

/-- The target is at most cruise. -/
theorem speedTarget_cruise (v : Nat) (s : State) : (s.speedTarget v).1 ≤ s.cfs.speeds.cruise := by
  have h : (s.speedTarget v).1 ≤ if s.roc.runEnable then s.cfs.speeds.cruise else 0 :=
    leastTerm_le (l := s.targetTerms v) List.mem_cons_self
  split at h
  · exact h
  · exact Nat.le_trans h (Nat.zero_le _)

/-- A ramp step toward a target at most cruise stays at most cruise (R34). -/
theorem rampStep_cruise {v target a d c : Nat} (hv : v ≤ c * 1000) (ht : target ≤ c) : rampStep v target a d ≤ c * 1000 := by
  unfold rampStep
  split <;> omega

theorem rampUpdate_effect {v : Nat} {s : State} (hr : s.roc.rotation = .running) (ht : s.roc.trialStep = false)
    (hv : v ≤ s.cfs.speeds.cruise) : Effect s (rampUpdate v s) :=
  withRoc_effect fun i => turned_sound i.wheel (by simp [hr])
    (fun k => absurd k (notConfig i.wheel (by simp [hr]) (by simp [hr]))) (fun h => absurd hr h) rfl
    (fun h => by simp [ht] at h) (.inr (rampStep_cruise i.wheel.cruise hv))

theorem runningStep_effect {s : State} (hr : s.roc.rotation = .running) (ht : s.roc.trialStep = false) :
    Effect s (runningStep s) := by
  have base : Effect s (rampUpdate (s.speedTarget s.roc.vCmd).1 (withTarget (s.reportedTarget s.roc.vCmd) s)) :=
    (Light.effect (t := withTarget (s.reportedTarget s.roc.vCmd) s) {}).trans (rampUpdate_effect hr ht (speedTarget_cruise _ s))
  unfold runningStep
  refine base.trans ?_
  dsimp only
  split
  · next h => exact enterStanding_effect hr h.1 ht
  · exact Effect.refl _

theorem trialStepUpdate_calm {s : State} (hr : s.roc.rotation = .running) (ht : s.roc.trialStep = true) :
    Calm s (trialStepUpdate s) := by
  have base : Calm s (withTarget (0, .held) { s with roc := { s.roc with driveRef := 0 } }) :=
    withRoc_calm fun i => turned_sound i.wheel (by simp [hr])
      (fun k => absurd k (notConfig i.wheel (by simp [hr]) (by simp [hr]))) (fun h => absurd hr h)
      (by show 0 = driveWord s.roc.vCmd; rw [(i.wheel.trial ht).2]; rfl) i.wheel.trial
  refine ⟨?_, ?_, ?_, ?_, ?_⟩
  all_goals unfold trialStepUpdate; dsimp only
  all_goals split
  all_goals first | exact base.cfs | exact base.time | exact base.pending | exact base.ports | exact base.inner | skip
  all_goals unfold enterStanding; dsimp only
  · exact (enterDoorHolds_event _ _).cfs
  · exact (enterDoorHolds_event _ _).time
  · exact (enterDoorHolds_event _ _).pending
  · exact (enterDoorHolds_event _ _).ports
  · intro i
    have hv : s.roc.vCmd = 0 := (i.wheel.trial ht).2
    exact (base.trans (enterStanding_calm (v := s.roc.vCmd) hr hv)).inner i

/-- After an update under a trial step the trial step is in force still, or the wheel stands still (R39). -/
theorem trialStepUpdate_trial {s : State} (ht : s.roc.trialStep = true) :
    (trialStepUpdate s).roc.trialStep = true ∨ (trialStepUpdate s).ptr.standstill = true := by
  unfold trialStepUpdate
  dsimp only
  split
  · next h =>
    right
    unfold enterStanding
    dsimp only
    rw [(enterDoorHolds_event _ _).ptr]
    exact h
  · exact .inl ht

/-- The decision of an update in STANDING (R24). -/
theorem standingLeave_effect {u : State} {t : Nat} (hur : u.roc.rotation = .standing) (hv : t ≤ u.cfs.speeds.cruise) :
    Effect u (if 0 < t then rampUpdate t { u with roc := { u.roc with rotation := .running, standTimer := none } }
      else { u with roc := { u.roc with driveRef := 0 } }) := by
  split
  · refine withRoc_effect fun i => turned_sound i.wheel (by simp [hur])
      (fun k => absurd k (notConfig i.wheel (by simp [hur]) (by simp [hur]))) (fun h => absurd rfl h) rfl (fun h => ?_)
      (.inr (rampStep_cruise i.wheel.cruise hv))
    have := (i.wheel.trial h).1
    simp [hur] at this
  · refine withRoc_effect fun i => turned_sound i.wheel (by simp [hur])
      (fun k => absurd k (notConfig i.wheel (by simp [hur]) (by simp [hur]))) i.wheel.still ?_ i.wheel.trial
    show 0 = driveWord u.roc.vCmd
    rw [i.wheel.still (by simp [hur])]; rfl

theorem standingStep_effect {s : State} (hr : s.roc.rotation = .standing) : Effect s (standingStep s) :=
  (Light.effect (t := withTarget (s.reportedTarget s.roc.vCmd) s) {}).trans
    (standingLeave_effect hr (speedTarget_cruise _ s))

/-- A wheel at rest whose reference is set to 0 is as it was. -/
theorem zeroReference_effect {t : Nat × LimitingTerm} {s : State} (hr : s.roc.rotation ≠ .running) :
    Effect s (withTarget t { s with roc := { s.roc with driveRef := 0 } }) :=
  withRoc_effect fun i => ⟨i.wheel.park, i.wheel.config, i.wheel.still,
    (by show 0 = driveWord s.roc.vCmd; rw [i.wheel.still hr]; rfl), i.wheel.trial, i.wheel.cruise, i.wheel.decel⟩

/-- Without a trial step in RUNNING the Rotation Controller's step is an effect. -/
theorem rotationStep_effect {s : State} (hn : ¬(s.roc.rotation = .running ∧ s.roc.trialStep = true)) :
    Effect s (rotationStep s) := by
  unfold rotationStep
  split
  · next h => exact brakedStep_effect h
  · next h => exact zeroReference_effect (by simp [h])
  · next h =>
    split
    · next ht => exact absurd ⟨h, ht⟩ hn
    · next ht => exact runningStep_effect h (by simpa using ht)
  · next h => exact standingStep_effect h
  · next h => exact zeroReference_effect (by simp [h])

theorem rotationStep_trialStep {s : State} (h : s.roc.rotation = .running ∧ s.roc.trialStep = true) :
    rotationStep s = trialStepUpdate s := by
  unfold rotationStep
  rw [h.1]
  exact if_pos h.2

theorem rotationStep_calm (s : State) : Calm s (rotationStep s) := by
  by_cases h : s.roc.rotation = .running ∧ s.roc.trialStep = true
  · rw [rotationStep_trialStep h]; exact trialStepUpdate_calm h.1 h.2
  · exact (rotationStep_effect h).toCalm

/-- A trial that measures on after the Rotation Controller's step has its trial step still, or stands still. -/
theorem rotationStep_trial {s : State} (i : s.trialSound) (m : (rotationStep s).mvu.trial.status = .measuring) :
    (rotationStep s).roc.trialStep = true ∨ (rotationStep s).ptr.standstill = true := by
  by_cases h : s.roc.rotation = .running ∧ s.roc.trialStep = true
  · rw [rotationStep_trialStep h]; exact trialStepUpdate_trial h.2
  · exact .inl ((rotationStep_effect h).trial i m)

theorem trackingCheck_effect (b : Bool) (s : State) : Effect s (trackingCheck b s) :=
  Effect.ite ((Light.effect (t := { s with roc := { s.roc with tracking := 0 } }) {}).trans (report_effect _ _ _))
    (Light.effect {})

/-- The tracking check leaves the Position Tracker, and a trial with its trial step. -/
theorem trackingCheck_trial {b : Bool} {s : State} :
    (trackingCheck b s).ptr = s.ptr ∧ ((trackingCheck b s).mvu.trial.status = .measuring →
      s.mvu.trial.status = .measuring ∧ (trackingCheck b s).roc.trialStep = s.roc.trialStep) := by
  unfold trackingCheck
  dsimp only
  split
  · exact ⟨(report_event _ _ _).ptr, (report_event _ _ _).trial⟩
  · exact ⟨rfl, fun h => ⟨h, rfl⟩⟩

/-- a_eff as a trial leaves it lies where it lay (R35). -/
theorem offerDecel_sound {sp : Speeds} {offered a : Nat} (h : sp.aMin ≤ a ∧ a ≤ sp.aCfg) :
    sp.aMin ≤ offerDecel sp offered a ∧ offerDecel sp offered a ≤ sp.aCfg := by
  unfold offerDecel
  split
  · assumption
  · exact h

/-- A final trial record and a_eff in place, and the notices that follow. -/
theorem completed_effect {t : Trial} {a : Nat} {c : Prop} [Decidable c] {s : State} (ht : t.status ≠ .measuring)
    (ha : s.cfs.speeds.aMin ≤ s.roc.aEff ∧ s.roc.aEff ≤ s.cfs.speeds.aCfg →
      s.cfs.speeds.aMin ≤ a ∧ a ≤ s.cfs.speeds.aCfg) :
    Effect s (notify (.trialDone t)
      (if c then { s with mvu := { s.mvu with trial := t }, roc := { s.roc with aEff := a } }
        else report .decelInsufficient none
          { s with mvu := { s.mvu with trial := t }, roc := { s.roc with aEff := a } })) := by
  refine Effect.trans (t := { s with mvu := { s.mvu with trial := t }, roc := { s.roc with aEff := a } })
    ⟨⟨rfl, rfl, rfl, ⟨[], rfl⟩, fun i => ⟨i.holds, ?_, i.points, i.slots, GroupsSound.congr (s := s) rfl rfl i.groups⟩⟩,
      fun _ k => absurd k ht⟩
    ((Effect.ite (Effect.refl _) (report_effect _ _ _)).trans (notify_event _ _).effect)
  exact ⟨i.wheel.park, i.wheel.config, i.wheel.still, i.wheel.reference, i.wheel.trial, i.wheel.cruise, ha i.wheel.decel⟩

theorem completeTrial_effect (s : State) : Effect s (completeTrial s) := by
  unfold completeTrial
  exact completed_effect (fun k => by cases k) fun h => by
    split
    · exact offerDecel_sound h
    · exact h

/-- After a completion no trial measures (R57). -/
theorem completeTrial_done (s : State) : (completeTrial s).mvu.trial.status ≠ .measuring := fun m => by
  unfold completeTrial at m
  dsimp only at m
  split at m
  · cases m
  · have := ((report_event _ _ _).trial m).1
    cases this

theorem trialUpdate_effect (d : Int) (s : State) : Effect s (trialUpdate d s) :=
  Effect.ite ((Light.effect (t := { s with mvu := { s.mvu with
      trial := { s.mvu.trial with counts := some (s.mvu.trial.counts.getD 0 + d) } } }) {}).trans
    (Effect.ite (completeTrial_effect _) (Effect.refl _))) (Effect.refl s)

/-- A trial that has its trial step, or stands still, has its trial step after the Move Unit's part of an update (R56). -/
theorem trialUpdate_trial {d : Int} {s : State}
    (h : s.mvu.trial.status = .measuring → s.roc.trialStep = true ∨ s.ptr.standstill = true) :
    (trialUpdate d s).trialSound := fun m => by
  unfold trialUpdate at m ⊢
  dsimp only at m ⊢
  split
  · next hm =>
    rw [if_pos hm] at m
    split
    · next hs => rw [if_pos hs] at m; exact absurd m (completeTrial_done _)
    · next hs => exact (h hm).resolve_right hs
  · next hm => rw [if_neg hm] at m; exact absurd m hm

theorem judgeMove_event {m : Move} (h : m.status = .active) (r : Int) (s : State) : Event s (judgeMove m r s) := by
  unfold judgeMove
  dsimp only
  split
  · split
    · exact ((moveChanged_mild _ _ _).event fun _ => slots_of_occupied (moveChanged_occupies rfl)).trans
        (Event.ite (changeToLoading_event _ _) (Event.refl _))
    · exact finishA_event _ _
  · exact Event.ite (finishA_event _ _) (Event.ite (finishA_event _ _)
      ((setSlot_mild _ _ _).event fun _ => slots_of_occupied (show Move.occupiesA _ = true by simp [Move.occupiesA, h])))

theorem moveUpdate_event (s : State) : Event s (moveUpdate s) := by
  unfold moveUpdate
  split
  · split
    · next h => exact judgeMove_event h.1 _ _
    · exact Event.refl s
  · exact Event.refl s

theorem keepWord_effect (s : State) : Effect s (keepWord s) := Light.effect {}

/-- A control update is an effect (R3). -/
theorem controlUpdate_effect (s : State) : Effect s (controlUpdate s) := by
  refine Effect.trans (t := moveUpdate (trialUpdate s.ptr.delta
    (trackingCheck (updateWheel s).roc.trialStep (rotationStep (updateWheel s))))) ?_ (keepWord_effect _)
  refine ⟨(updateWheel_effect s).toCalm.trans ((rotationStep_calm _).trans ((trackingCheck_effect _ _).toCalm.trans
    ((trialUpdate_effect _ _).toCalm.trans (moveUpdate_event _).effect.toCalm))), fun i => ?_⟩
  refine (moveUpdate_event _).trialSound (trialUpdate_trial fun m => ?_)
  have h := trackingCheck_trial.2 m
  rw [h.2, trackingCheck_trial.1]
  exact rotationStep_trial ((updateWheel_effect s).trial i) h.1

/-! ### The ring (R61 to R70) -/

theorem startTransaction_effect (k : Nat) (s : State) : Effect s (startTransaction k s) :=
  (Light.effect (t := { s with cru := { s.cru with flight := _ } }) {}).trans
    (Effect.ite (Light.effect {}) (Effect.refl _))

theorem beginRound_effect (s : State) : Effect s (beginRound s) :=
  (Light.effect (t := { s with cru := { s.cru with roundPointer := s.roundNext, nextSlot := .window } }) {}).trans
    (startTransaction_effect _ _)

theorem beginTransaction_effect (s : State) : Effect s (beginTransaction s) := by
  unfold beginTransaction
  split
  · exact beginRound_effect s
  · split
    · exact beginRound_effect s
    · exact (Light.effect {}).trans (startTransaction_effect _ _)

theorem endTransaction_effect (s : State) : Effect s (endTransaction s) :=
  Effect.ite (beginTransaction_effect s) (Light.effect {})

theorem doorAway_effect (k : Nat) (d : Door) (s : State) : Effect s (doorAway k d s) :=
  Effect.ite (Effect.ite ((Light.effect {}).trans (report_effect _ _ _)) (Effect.refl s)) (Light.effect {})

theorem replyFaults_effect (k : Nat) (b : Bool) (r : RingReply) (old : Node) (s : State) :
    Effect s (replyFaults k b r old s) :=
  (Effect.ite (report_effect _ _ _) (Effect.refl _)).trans
    ((Effect.ite (report_effect _ _ _) (Effect.refl _)).trans
      ((doorAway_effect _ _ _).trans (Effect.ite (report_effect _ _ _) (Effect.refl _))))

theorem replyCall_event (k : Nat) (r : RingReply) (old : Node) (s : State) : Event s (replyCall k r old s) :=
  Event.ite (notify_event _ _) (Event.refl s)

theorem clearClean_event (k : Nat) (s : State) : Event s (clearClean k s) := setCabin_event (by rfl)

theorem takeReply_event (k : Nat) (t : Transaction) (r : RingReply) (before s : State) :
    Event s (takeReply k t r before s) :=
  (Event.ite (clearClean_event _ _) (Event.refl _)).trans ((closeProgress_event _ _ _ _).trans
    ((Event.ite (Event.refl _) ((formSums_event _).trans (settleCabins_event _ _))).trans
      (Event.ite (evaluate_event _ _) (Event.refl _))))

theorem goodReply_effect (t : Transaction) (r : RingReply) (s : State) : Effect s (goodReply t r s) :=
  (Light.effect (t := setNode t.cabin ((s.node t.cabin).answered t.carried r s.cfs.clock)
      { s with cru := { s.cru with flight := none } }) {}).trans
    ((replyFaults_effect _ _ _ _ _).trans ((replyCall_event _ _ _ _).effect.trans
      ((takeReply_event _ _ _ _ _).effect.trans (endTransaction_effect _))))

theorem failTransaction_effect (t : Transaction) (s : State) : Effect s (failTransaction t s) :=
  (Light.effect (t := setNode t.cabin { s.node t.cabin with taken := false, state := .silent }
      { s with cru := { s.cru with flight := none } }) {}).trans
    ((Effect.ite (Effect.refl _) (report_effect _ _ _)).trans
      ((clearClean_event _ _).effect.trans (endTransaction_effect _)))

theorem endTry_effect (t : Transaction) (s : State) : Effect s (endTry t s) :=
  Effect.ite (failTransaction_effect t s) (Light.effect {})

theorem replyArrives_effect (b : List Byte) (s : State) : Effect s (replyArrives b s) := by
  unfold replyArrives
  split
  · exact Effect.refl s
  · split
    · exact endTry_effect _ _
    · exact goodReply_effect _ _ _

theorem requestSent_effect (s : State) : Effect s (requestSent s) := by
  unfold requestSent
  split
  · exact Effect.refl s
  · exact Effect.ite (Effect.refl s) (Light.effect {})

theorem nodeTimeout_effect (s : State) : Effect s (nodeTimeout s) := by
  unfold nodeTimeout
  split
  · exact Effect.refl s
  · exact endTry_effect _ _

/-! ### The wind (R118, R128) -/

theorem windHandOver_event (p : Option WindLevel) (c : WindCause) (s : State) : Event s (windHandOver p c s) :=
  (holdInsert_wind _ _).trans (notify_event _ _)

theorem windReports_event (w : Wmn) (s : State) : Event s (windReports w s) :=
  (Event.foldl _ (fun _ _ => Event.ite (report_event _ _ _) (Event.refl _)) _ _).trans
    ((Event.foldl _ (fun _ _ => Event.ite (report_event _ _ _) (Event.refl _)) _ _).trans
      (Event.ite (report_event _ _ _) (Event.refl _)))

theorem windSample_effect (s : State) : Effect s (windSample s) :=
  (Light.effect (t := { s with wmn := s.wmn.sampleAfter }) {}).trans
    ((windReports_event s.wmn _).effect.trans (Effect.ite (Effect.refl _) (windHandOver_event _ _ _).effect))

/-- A sample event leaves the Wind Monitor as R118 computes it. -/
theorem windSample_wmn (s : State) : (windSample s).wmn = s.wmn.sampleAfter := by
  unfold windSample
  dsimp only
  split
  · exact (windReports_event s.wmn _).wmn
  · exact (windHandOver_event _ _ _).wmn.trans (windReports_event s.wmn _).wmn

theorem selectProfile_effect (id : ProfileId) (s : State) : Effect s (selectProfile id s) :=
  Effect.ite (Effect.refl s) ((Light.effect (t := { s with wmn := s.wmn.selected id }) {}).trans
    (Effect.ite (Effect.refl _) (windHandOver_event _ _ _).effect))

/-! ### The platform inputs (R144 to R150) -/

theorem judgeInputs_event (g : GroupId) (s : State) : Event s (judgeInputs g s) := by
  unfold judgeInputs
  dsimp only
  split
  · split
    · exact holdInsert_inputs _ _ _
    · exact Event.ite (Event.refl s) (holdInsert_inputs _ _ _)
  · exact holdRemove_event _ _

theorem groupDeparts_effect (g : GroupId) (c : InputCause) (s : State) : Effect s (groupDeparts g c s) :=
  (Light.effect (t := setGroup g { s.group g with isMatch := false, factor := true } s) {}).trans
    ((Effect.ite (notify_event _ _).effect (Effect.refl _)).trans (report_effect _ _ _))

theorem formMatch_effect (g : GroupId) (c : InputCause) (s : State) : Effect s (formMatch g c s) :=
  Effect.ite (Light.effect {}) (Effect.ite (groupDeparts_effect _ _ _) (Effect.refl s))

theorem reformGroup_effect (g : GroupId) (c : InputCause) (s : State) : Effect s (reformGroup g c s) :=
  (formMatch_effect g c s).trans (judgeInputs_event _ _).effect

theorem inputRaw_effect (i : Nat) (b : Bool) (s : State) : Effect s (inputRaw i b s) := Light.effect {}

theorem inputChange_effect (i : Nat) (s : State) : Effect s (inputChange i s) :=
  Effect.ite ((Light.effect (t := setInput i (s.input i).taken s) {}).trans (reformGroup_effect _ _ _)) (Effect.refl s)

theorem inputsWrite_effect (g : GroupId) (a b : BitVec 8) (v : Level) (n : Bool) (s : State) :
    Effect s (inputsWrite g a b v n s) :=
  (Light.effect (t := setGroup g ((s.group g).written a b v n) s) {}).trans
    (Effect.ite (reformGroup_effect _ _ _) (Effect.ite (judgeInputs_event _ _).effect (Effect.refl _)))

theorem factorClear_effect (g : GroupId) (s : State) : Effect s (factorClear g s) :=
  (Light.effect (t := setGroup g { s.group g with factor := false } s) {}).trans (judgeInputs_event _ _).effect

theorem groupResetEnd_effect (g : GroupId) (s : State) : Effect s (groupResetEnd g s) :=
  (Light.effect (t := setGroup g { s.group g with isMatch := true, factor := false } s) {}).trans
    (reformGroup_effect _ _ _)

theorem inputsResetEnd_effect (s : State) : Effect s (inputsResetEnd s) :=
  (Light.effect (t := { s with pim := { s.pim with inputs := s.pim.inputs.map Input.taken } }) {}).trans
    ((groupResetEnd_effect .g0 _).trans (groupResetEnd_effect .g1 _))

/-! ### The Rotation Controller's lines and timers (R21, R22, R24, R38) -/

/-- What the invariants read of the Rotation Controller. -/
def Roc.ride (r : Roc) : (Rotation × Nat × Nat × Bool) × Nat × List LimitPoint := (r.drive, r.aEff, r.limits)

theorem brakeSetStart_ride (r : Roc) : (brakeSetStart r).ride = r.ride := by
  unfold brakeSetStart; split <;> rfl

theorem withRide_light {s : State} {r : Roc} (h : r.ride = s.roc.ride) : Light s { s with roc := r } := by
  simp only [Roc.ride, Prod.mk.injEq] at h
  have ht : r.trialStep = s.roc.trialStep := congrArg (fun d => d.2.2.2) h.1
  exact { drive := h.1, aEff := h.2.1, points := fun k => by show PointsSound r.limits; rw [h.2.2]; exact k
          trial := fun k m => by show r.trialStep = true; rw [ht]; exact k m }

theorem withRide_effect {s : State} {r : Roc} (h : r.ride = s.roc.ride) : Effect s { s with roc := r } :=
  (withRide_light h).effect

/-- A wheel that enters BRAKED from a state with the brake lifted keeps the invariants. -/
theorem enterBraked_effect {s : State} (hn : s.roc.rotation ≠ .tripped) (hr : s.roc.rotation ≠ .running) :
    Effect s { s with roc := enterBraked s.roc } := by
  have hd : (enterBraked s.roc).ride = ((.braked, 0, 0, s.roc.trialStep), s.roc.aEff, s.roc.limits) :=
    brakeSetStart_ride _
  simp only [Roc.ride, Roc.drive, Prod.mk.injEq] at hd
  obtain ⟨hd, ha, hl⟩ := hd
  refine withRoc_effect (fun i => turned_sound i.wheel hn (fun _ => .inl hd.1) (fun _ => hd.2.1) ?_ (fun h => ?_)
    (.inl (by rw [hd.2.1]; exact Nat.zero_le _)) ha) hl hd.2.2.2
  · rw [hd.2.2.1, hd.2.1]; rfl
  · exact absurd (i.wheel.trial (hd.2.2.2 ▸ h)).1 hr

theorem brakeReleasedArrives_effect (s : State) : Effect s { s with roc := brakeReleasedArrives s.roc } := by
  unfold brakeReleasedArrives
  split
  · next h =>
    refine withRoc_effect fun i => turned_sound i.wheel (by simp [h.1])
      (fun k => absurd k (notConfig i.wheel (by simp [h.1]) (by simp [h.1]))) (fun k => absurd rfl k) i.wheel.reference
      (fun k => ?_)
    have := (i.wheel.trial k).1
    simp [h.1] at this
  · exact Effect.refl s

theorem brakeSetArrives_ride (r : Roc) : (brakeSetArrives r).ride = r.ride := by
  unfold brakeSetArrives
  split
  · rfl
  · split <;> rfl

theorem withLine_effect (ln : FeedbackLine) (b : Bool) (s : State) : Effect s { s with roc := s.roc.withLine ln b } := by
  cases ln <;> exact Light.effect {}

theorem lineArrives_effect (ln : FeedbackLine) (s : State) : Effect s { s with roc := lineArrives ln s.roc } := by
  cases ln
  · exact Effect.refl s
  · exact brakeReleasedArrives_effect s
  · exact withRide_effect (brakeSetArrives_ride _)

theorem lineChanges_effect (ln : FeedbackLine) (b : Bool) (s : State) : Effect s (lineChanges ln b s) := by
  unfold lineChanges
  dsimp only
  split
  · exact (withLine_effect ln b s).trans (lineArrives_effect ln _)
  · exact withLine_effect ln b s

theorem lineArrival_effect (ln : FeedbackLine) (s : State) : Effect s (lineArrival ln s) := by
  unfold lineArrival
  dsimp only
  split
  · exact withLine_effect ln true s
  · exact (withLine_effect ln true s).trans (lineArrives_effect ln _)

theorem releaseTimeout_effect (s : State) : Effect s (releaseTimeout s) := by
  unfold releaseTimeout
  split
  · next h => exact (enterBraked_effect (by simp [h.2]) (by simp [h.2])).trans (report_effect _ _ _)
  · exact Effect.refl s

theorem brakeSetTimeout_effect (s : State) : Effect s (brakeSetTimeout s) :=
  Effect.ite ((Light.effect {}).trans (report_effect _ _ _)) (Effect.refl s)

theorem standExpires_effect (s : State) : Effect s (standExpires s) := by
  unfold standExpires
  split
  · next h => exact enterBraked_effect (by simp [h.2]) (by simp [h.2])
  · exact Effect.refl s

theorem graceExpires_effect (s : State) : Effect s (graceExpires s) := Light.effect {}

theorem latchMark_effect (s : State) : Effect s (latchMark s) := Light.effect {}

theorem pulse_effect (ch : Channel) (s : State) : Effect s (pulse ch s) := Light.effect {}

end Sys2Proof.Machine
end

