-- ==== Sys2Proof/Laws/Answers.lean ====
section
/-! SUPPORT. What an accepted request can do (R175, R176): it keeps the queue of commands, the hold set, the wheel and the
group queue sound, and reaches the ports by notices and by fields that hold no frame. -/

namespace Sys2Proof.Machine

/-! ### The relation -/

/-- A property of a port that a notice keeps, and that reads nothing but FIFO, reply slot, transmitter and outbox. -/
structure FrameProperty (P : PortState → Prop) : Prop where
  notice : ∀ n q, P q → P (portNotice n q)
  frames : ∀ q r : PortState, r.fifo = q.fifo → r.reply = q.reply → r.transmitter = q.transmitter → r.outbox = q.outbox →
    P q → P r

/-- Each port of w is reached from that of v by notices and changes of fields that hold no frame. -/
def Lkp.Reaches (v w : Lkp) : Prop := ∀ P, FrameProperty P → (P v.p1 → P w.p1) ∧ (P v.p2 → P w.p2)

/-- What taking a request leaves and keeps. -/
structure Taken (s t : State) : Prop where
  pending : t.pending = s.pending
  held : t.time.resetHeld = s.time.resetHeld
  ports : s.lkp.Reaches t.lkp
  inner : Inner s → Inner t
  trial : s.trialSound → t.trialSound

/-- An update of fields that no invariant reads. -/
structure Aside (s t : State) : Prop where
  pending : t.pending = s.pending := by rfl
  held : t.time.resetHeld = s.time.resetHeld := by rfl
  device : t.cfs.device = s.cfs.device := by rfl
  speeds : t.cfs.speeds = s.cfs.speeds := by rfl
  hlu : t.hlu = s.hlu := by rfl
  drive : t.roc.drive = s.roc.drive := by rfl
  aEff : t.roc.aEff = s.roc.aEff := by rfl
  limits : t.roc.limits = s.roc.limits := by rfl
  mvu : t.mvu = s.mvu := by rfl
  queue : t.bsq.queue = s.bsq.queue := by rfl
  manifests : t.manifests = s.manifests := by rfl
  lkp : t.lkp = s.lkp := by rfl

/-- The invariants read the wheel, the moves, the queue and the manifests alone. -/
theorem Inner.same {s t : State} (i : Inner s) (hl : t.hlu = s.hlu) (hr : t.roc = s.roc) (hm : t.mvu = s.mvu)
    (hc : t.cfs = s.cfs) (hq : t.bsq.queue = s.bsq.queue) (hf : t.manifests = s.manifests) : Inner t :=
  ⟨by rw [hl]; exact i.holds, i.wheel.congr hl (by rw [hr]) (by rw [hc]) (by rw [hc]) (by rw [hr]), by rw [hr]; exact i.points,
    by unfold State.slotsSound State.pendingB State.occupiedA; rw [hm]; exact i.slots, i.groups.congr hq hf⟩

theorem GroupsSound.same {s t : State} (h : GroupsSound s) (hq : t.bsq.queue = s.bsq.queue)
    (hm : t.manifests = s.manifests) : GroupsSound t := h.congr hq hm

theorem Lkp.Reaches.refl (v : Lkp) : v.Reaches v := fun _ _ => ⟨id, id⟩

theorem Lkp.Reaches.trans {u v w : Lkp} (h : u.Reaches v) (k : v.Reaches w) : u.Reaches w := fun P hp =>
  ⟨(k P hp).1 ∘ (h P hp).1, (k P hp).2 ∘ (h P hp).2⟩

theorem Lkp.noticed_reaches (v : Lkp) (ns : List Notice) : v.Reaches (v.noticed ns) := fun P hp => by
  have : ∀ (ns : List Notice) (q : PortState), P q → P (ns.foldl (fun q n => portNotice n q) q) := by
    intro ns
    induction ns with
    | nil => exact fun _ => id
    | cons n ns ih => exact fun q h => ih _ (hp.notice n q h)
  exact ⟨this ns _, this ns _⟩

theorem Taken.refl (s : State) : Taken s s := ⟨rfl, rfl, .refl _, id, id⟩

theorem Taken.trans {s t u : State} (h : Taken s t) (k : Taken t u) : Taken s u :=
  ⟨k.pending.trans h.pending, k.held.trans h.held, h.ports.trans k.ports, k.inner ∘ h.inner, k.trial ∘ h.trial⟩

theorem Effect.taken {s t : State} (h : Effect s t) : Taken s t := by
  refine ⟨h.pending, by rw [h.time], ?_, h.inner, h.trial⟩
  obtain ⟨ns, hn⟩ := h.ports
  rw [hn]; exact Lkp.noticed_reaches _ _

theorem Event.taken {s t : State} (h : Event s t) : Taken s t := h.effect.taken

theorem Aside.inner {s t : State} (h : Aside s t) (i : Inner s) : Inner t :=
  ⟨by rw [h.hlu]; exact i.holds, i.wheel.congr h.hlu h.drive h.device h.speeds h.aEff, by rw [h.limits]; exact i.points,
    by unfold State.slotsSound State.pendingB State.occupiedA; rw [h.mvu]; exact i.slots, i.groups.congr h.queue h.manifests⟩

theorem Aside.taken {s t : State} (h : Aside s t) : Taken s t :=
  ⟨h.pending, h.held, by rw [h.lkp]; exact .refl _, h.inner, fun i m => by
    have hd := h.drive
    simp only [Roc.drive, Prod.mk.injEq] at hd
    rw [hd.2.2.2]; rw [h.mvu] at m; exact i m⟩

theorem Taken.ite {s t u : State} {c : Prop} [Decidable c] (h : Taken s t) (k : Taken s u) :
    Taken s (if c then t else u) := by
  split
  · exact h
  · exact k

/-- A port whose fields that hold no frame change. -/
theorem setPort_taken {p : Port} {q : PortState} {s : State} (hf : q.fifo = (s.port p).fifo)
    (hr : q.reply = (s.port p).reply) (ht : q.transmitter = (s.port p).transmitter)
    (ho : q.outbox = (s.port p).outbox) : Taken s (setPort p q s) := by
  refine ⟨rfl, rfl, ?_, fun i => i.same rfl rfl rfl rfl rfl rfl, fun i => i⟩
  cases p
  · exact fun P hp => ⟨hp.frames _ _ hf hr ht ho, id⟩
  · exact fun P hp => ⟨id, hp.frames _ _ hf hr ht ho⟩

/-! ### Configuration writes (R180) -/

theorem renumbered_manifests (keep : Nat) (l : List Cabin) :
    (renumbered keep l).map Cabin.manifest = l.map Cabin.manifest := by
  rw [renumbered, List.map_append, List.map_map]
  show (l.take keep).map Cabin.manifest ++ (l.drop keep).map Cabin.manifest = _
  rw [← List.map_append, List.take_append_drop]

theorem geometryWrite_taken (g : Geometry) (s : State) : Taken s (geometryWrite g s) := by
  refine Taken.trans (Aside.taken { manifests := ?_ }) ((formSums_event _).trans (settleCabins_event _ _)).taken
  show List.map Cabin.manifest (if _ then _ else _) = _
  split
  · rfl
  · exact renumbered_manifests _ _

theorem linkWrite_taken (p : Port) (time : Nat) (v : Level) (a b : Bool) (s : State) :
    Taken s (linkWrite p time v a b s) := by
  unfold linkWrite
  dsimp only
  refine Taken.trans (setPort_taken (p := p) ?_ ?_ ?_ ?_)
    (Taken.ite (holdRemove_event _ _).taken (Taken.ite (holdInsert_link _ _ _).taken (Taken.refl _)))
  all_goals (split <;> (try split) <;> rfl)

/-- A SPEEDS write with a_min at most a_cfg, taken while the wheel is parked (R19, R34, R35). -/
theorem speedsWrite_taken {sp : Speeds} {s : State} (ha : sp.aMin ≤ sp.aCfg) (hd : s.cfs.device = .config) :
    Taken s (speedsWrite sp s) :=
  ⟨rfl, rfl, .refl _, fun i => ⟨i.holds,
    ⟨i.wheel.park, i.wheel.config, i.wheel.still, i.wheel.reference, i.wheel.trial, by
      have hp := i.wheel.config hd
      have h0 : s.roc.vCmd = 0 := i.wheel.still fun k => by simp [State.wheelParked, k] at hp
      show s.roc.vCmd ≤ _
      rw [h0]; exact Nat.zero_le _, ⟨ha, Nat.le_refl _⟩⟩, i.points, i.slots, i.groups.same rfl rfl⟩, fun i => i⟩

/-- The values of a write that R180 accepts: the SPEEDS table is written in CONFIG, with a_min at most a_cfg. -/
def Entry.speedsAllowed (e : Entry) (v : List Int) (s : State) : Prop :=
  e = .speeds → s.cfs.device = .config ∧ (speedsOf v).aMin ≤ (speedsOf v).aCfg

theorem Table.entry_speeds {t : Table} {n : Nat} (h : t.entry n = some .speeds) : t = .speeds := by
  cases t with
  | speeds => rfl
  | link =>
    dsimp only [Table.entry] at h
    split at h
    · cases h
    · split at h <;> cases h
  | _ => simp [Table.entry, unindexed] at h

theorem judgeConfig_speeds {table index : Byte} {raw : List (Byte × Quad)} {s : State} {t : Table} {e : Entry}
    {list : List (Nat × Int)} {v : List Int} (h : judgeConfig table index raw s = .accepted t e list v) :
    e.speedsAllowed v s := by
  rintro rfl
  unfold judgeConfig at h
  split at h
  · cases h
  rename_i t' ht
  split at h
  · cases h
  rename_i e' he
  split at h
  · cases h
  rename_i hc
  unfold judgeValues at h
  dsimp only at h
  repeat' split at h
  all_goals first | (cases h; done) | skip
  rename_i hr
  cases h
  obtain rfl := Table.entry_speeds he
  refine ⟨?_, ?_⟩
  · cases hd : s.cfs.device
    · rfl
    · simp [Table.configOnly, hd] at hc
  · simp only [relationFailure] at hr
    split at hr
    · next hle => exact Int.toNat_le_toNat hle
    · cases hr

theorem configWrite_taken {e : Entry} {list : List (Nat × Int)} {v : List Int} {s : State} (h : e.speedsAllowed v s) :
    Taken s (configWrite e list v s) := by
  cases e with
  | geometry => exact geometryWrite_taken _ s
  | zones => exact Aside.taken {}
  | speeds => exact speedsWrite_taken (h rfl).2 (h rfl).1
  | ring => exact Aside.taken {}
  | boarding =>
    exact Taken.trans (t := { s with cfs := { s.cfs with boarding := boardingOf v } }) (Aside.taken {})
      (settleCabins_event _ _).taken
  | balance =>
    exact Taken.trans (t := { s with cfs := { s.cfs with balance := balanceOf v } }) (Aside.taken {})
      (balanceJudge_event _).taken
  | windChannel c => exact Aside.taken {}
  | inputGroup g => exact (inputsWrite_effect _ _ _ _ _ _).taken
  | faultBank b => exact Aside.taken {}
  | linkPort p => exact linkWrite_taken _ _ _ _ _ _

/-! ### Device state (R186, R187, R188) -/

theorem commissionStore_taken (s : State) : Taken s (commissionStore s) :=
  ⟨rfl, rfl, .refl _, fun i =>
    ⟨i.holds, ⟨i.wheel.park, Device.noConfusion, i.wheel.still, i.wheel.reference, i.wheel.trial, i.wheel.cruise,
      ⟨Nat.le_trans i.wheel.decel.1 i.wheel.decel.2, Nat.le_refl _⟩⟩, i.points, i.slots, i.groups.same rfl rfl⟩, fun i => i⟩

theorem startRing_effect (s : State) : Effect s (startRing s) :=
  (Light.effect (t := { s with cru := { s.cru with
      nodes := s.cru.nodes.map fun n => { n with state := .unknown }
      running := true, windowPointer := none, roundPointer := s.cfs.geometry.n, nextSlot := .window } }) {}).trans
    (Effect.ite (beginTransaction_effect _) (Effect.refl _))

theorem startPresence_taken (s : State) : Taken s (startPresence s) := by
  refine ⟨rfl, rfl, fun P hp => ?_, fun i => i.same rfl rfl rfl rfl rfl rfl, fun i => i⟩
  have : ∀ q : PortState, P q → P q.presenceStart := by
    intro q h
    unfold PortState.presenceStart
    split
    · exact h
    · exact hp.frames q _ rfl rfl rfl rfl h
  exact ⟨this _, this _⟩

theorem commission_taken (s : State) : Taken s (commission s) :=
  (commissionStore_taken s).trans
    ((Taken.trans (t := { commissionStore s with bsq := { (commissionStore s).bsq with
        angles := some (angleTable (commissionStore s).cfs.geometry.n) } }) (Aside.taken {}) (formSums_event _).taken).trans
      ((startRing_effect _).taken.trans ((startPresence_taken _).trans
        (Taken.ite (seedAll_effect _).taken (Taken.refl _)))))

theorem restarted_manifests (l : List Cabin) : (l.map Cabin.restarted).map Cabin.manifest = l.map Cabin.manifest := by
  rw [List.map_map]; rfl

theorem decommission_taken {s : State} (hp : s.wheelParked = true) : Taken s (decommission s) := by
  refine Taken.trans (t := { s with
    cfs := { s.cfs with device := .config }
    roc := s.roc.decommissioned }) ⟨rfl, rfl, .refl _, fun i =>
      ⟨i.holds, ⟨i.wheel.park, fun _ => hp, i.wheel.still, i.wheel.reference, i.wheel.trial, i.wheel.cruise, i.wheel.decel⟩,
        ⟨List.nodup_nil, Nat.zero_le _⟩, i.slots, i.groups.same rfl rfl⟩, fun i => i⟩ ?_
  refine (endMoves_event .decommission _).taken.trans (Taken.trans ?_ (holdRemove_event .boarding _).taken)
  refine ⟨rfl, rfl, fun P hp => ⟨hp.frames _ _ rfl rfl rfl rfl, hp.frames _ _ rfl rfl rfl rfl⟩, fun i =>
    i.same rfl rfl rfl rfl rfl ?_, fun i => i⟩
  exact restarted_manifests _

theorem brakeWaitStarts_light (s : State) : Light s (brakeWaitStarts s) := withRide_light (brakeSetStart_ride _)

theorem bankReinserted_event (s : State) (b : BankId) : Event s (bankReinserted s b) := by
  unfold bankReinserted
  split
  · exact Event.refl s
  · exact holdInsert_fault _ _ _

/-- A warm reset's end, from its held state, is an effect. -/
theorem warmReset_effect (s : State) : Effect (warmResetHeld s) (warmReset s) :=
  (brakeWaitStarts_light _).effect.trans ((windHandOver_event _ _ _).effect.trans
    ((Effect.foldl _ (fun s b => (bankReinserted_event s b).effect) _ _).trans (inputsResetEnd_effect _)))

theorem highestLevel_nil : highestLevel [] = .none := rfl

/-- An empty hold set is sound. -/
theorem hluCold_sound : HoldsSound Hlu.cold :=
  formed_sound (l := []) (fun _ h => absurd h (List.not_mem_nil)) List.nodup_nil (fun _ h => absurd h (List.not_mem_nil))
    (fun _ => Nat.zero_le _)

theorem emptied_sound {s t : State} (hq : t.bsq.queue = []) (hm : t.manifests = s.manifests) (h : GroupsSound s) :
    GroupsSound t := by
  refine ⟨by rw [hq]; exact Nat.zero_le _, ?_⟩
  have hd := h.distinct
  rw [State.heldIds_eq] at hd ⊢
  rw [hq, hm]
  exact hd.sublist (List.sublist_append_right _ _)

theorem warmResetHeld_inner {s : State} (i : Inner s) : Inner (warmResetHeld s) :=
  ⟨hluCold_sound,
    ⟨fun h => absurd h Level.noConfusion, fun _ => rfl, fun _ => rfl, driveWord_zero.symm, fun h => absurd h Bool.noConfusion,
      Nat.zero_le _, ⟨Nat.le_trans i.wheel.decel.1 i.wheel.decel.2, Nat.le_refl _⟩⟩,
    ⟨List.nodup_nil, Nat.zero_le _⟩, fun h => (by cases h),
    emptied_sound (s := s) rfl (restarted_manifests _) i.groups⟩

theorem warmReset_inner {s : State} (i : Inner s) : Inner (warmReset s) :=
  (warmReset_effect s).inner (warmResetHeld_inner i)

/-- A parked wheel has no trial step, so a warm reset finds no trial measuring (R54). -/
theorem warmReset_trial {s : State} (i : Inner s) (ht : s.trialSound) (hp : s.wheelParked = true) :
    (warmReset s).trialSound :=
  (warmReset_effect s).trial fun m => by
    have := (i.wheel.trial (ht m)).1
    simp [State.wheelParked, this] at hp

/-! ### Requests with an effect of their own -/

theorem runEnable_taken (b : Bool) (s : State) : Taken s { s with roc := { s.roc with runEnable := b } } := Aside.taken {}

theorem startTrial_taken {s : State} (h : s.trialAllowed = true) : Taken s (startTrial s) := by
  have hr : s.roc.rotation = .running := by
    simp only [State.trialAllowed, Bool.and_eq_true, beq_iff_eq] at h
    exact h.1.1.1.1.1
  refine ⟨rfl, rfl, .refl _, fun i => ⟨i.holds, ?_, i.points, i.slots, i.groups.same rfl rfl⟩, fun _ _ => rfl⟩
  exact ⟨i.wheel.park, i.wheel.config, fun _ => rfl, driveWord_zero.symm, fun _ => ⟨hr, rfl⟩, Nat.zero_le _, i.wheel.decel⟩

theorem clearTrip_taken {s : State} (h : s.roc.rotation = .tripped ∧ s.ptr.standstill = true ∧ s.hlu.effective ≠ .park) :
    Taken s { s with roc := { s.roc with rotation := .braked } } :=
  ⟨rfl, rfl, .refl _, fun i => ⟨i.holds,
    ⟨fun k => absurd k h.2.2, fun _ => rfl, fun _ => i.wheel.still (by simp [h.1]), i.wheel.reference,
      fun k => absurd (i.wheel.trial k).1 (by simp [h.1]), i.wheel.cruise, i.wheel.decel⟩, i.points, i.slots,
    i.groups.same rfl rfl⟩, fun i => i⟩

theorem stationHold_legal {p : Port} {r : Nat} (h : 1 ≤ r ∧ r ≤ 15) : (stationHold p r).legal := by
  cases p <;> exact h

theorem stationHold_of {p q : Port} {r : Nat} (h : (stationHold p r).ofStation q = true) : q = p := by
  simp only [HoldId.ofStation, List.any_eq_true, beq_iff_eq] at h
  obtain ⟨x, -, hx⟩ := h
  cases p <;> cases q <;> first | rfl | simp [stationHold] at hx

theorem stationInsert_taken {p : Port} {r : Nat} {v : Level} {s : State} (h : 1 ≤ r ∧ r ≤ 15)
    (hc : ¬((s.hold (stationHold p r)).isNone && decide (4 ≤ s.stationCount p)) = true) :
    Taken s (holdInsert (stationHold p r) v s) := by
  refine (holdInsert_event (stationHold_legal h) fun q hq hn => ?_).taken
  rw [stationHold_of hq]
  simp only [Bool.and_eq_true, decide_eq_true_eq, not_and, Nat.not_le] at hc
  refine hc ?_
  rw [← Option.not_isSome, State.hold_isSome]
  simp [hn]

theorem groupAdd_taken {s : State} {id size mass acc : Nat} (h : groupAddRefusal id size mass acc s = none) :
    Taken s (addNotice (s.bsq.queue.length + 1)
      { s with bsq := { s.bsq with queue := s.bsq.queue ++ [s.newGroup id size mass (acc == 1)] } }) := by
  refine Taken.trans (t := { s with bsq := { s.bsq with queue := s.bsq.queue ++ [s.newGroup id size mass (acc == 1)] } })
    ⟨rfl, rfl, .refl _, fun i => ⟨i.holds, WheelSound.congr (s := s) rfl rfl rfl rfl rfl i.wheel, i.points,
      i.slots, ?_⟩, fun i => i⟩
    (addNotice_event _ _).taken
  unfold groupAddRefusal at h
  dsimp only at h
  have hid : id ∉ s.heldIds := by
    intro k
    simp only [k, if_true] at h
    repeat' split at h
    all_goals cases h
  have hlen : ¬32 ≤ s.bsq.queue.length := by
    intro k
    simp only [k, if_true] at h
    repeat' split at h
    all_goals cases h
  refine ⟨?_, ?_⟩
  · show (s.bsq.queue ++ [_]).length ≤ 32
    rw [List.length_append]
    have := Nat.lt_of_not_le hlen
    exact this
  · have hd := i.groups.distinct
    rw [State.heldIds_eq] at hd hid ⊢
    show ((s.bsq.queue ++ [s.newGroup id size mass (acc == 1)]).map Group.id ++ _).Nodup
    rw [List.map_append, List.append_assoc]
    show (s.bsq.queue.map Group.id ++ id :: _).Nodup
    rw [List.perm_middle.nodup_iff, List.nodup_cons]
    exact ⟨hid, hd⟩

theorem withdraw_taken (i : Nat) (s : State) (c : Prop) [Decidable c] (n : Notice) :
    Taken s (if c then notify n { s with bsq := { s.bsq with queue := s.bsq.queue.eraseIdx i } }
      else { s with bsq := { s.bsq with queue := s.bsq.queue.eraseIdx i } }) := by
  refine Taken.trans (t := { s with bsq := { s.bsq with queue := s.bsq.queue.eraseIdx i } })
    ⟨rfl, rfl, .refl _, fun k => ⟨k.holds, WheelSound.congr (s := s) rfl rfl rfl rfl rfl k.wheel, k.points,
      k.slots, ?_⟩, fun i => i⟩
    (Taken.ite (notify_event _ _).taken (Taken.refl _))
  refine ⟨Nat.le_trans (List.length_eraseIdx_le _ _) k.groups.bound, ?_⟩
  have hd := k.groups.distinct
  rw [State.heldIds_eq] at hd ⊢
  exact hd.sublist (List.Sublist.append ((List.eraseIdx_sublist _ _).map _) (List.Sublist.refl _))

theorem acknowledge_taken (b : BankId) (s : State) : Taken s (acknowledge b s) :=
  Taken.ite (Taken.trans (setBank_event _ _ s).taken (holdRemove_event _ _).taken) (Taken.refl s)

theorem servedCabin_manifest (b : Bool) (c : Cabin) : (servedCabin b c).manifest = c.manifest := by
  unfold servedCabin; split <;> rfl

theorem submission_taken {k : MoveKind} {o : MoveOrigin} {s t : State} {pl : List Byte}
    (h : submissionAnswer (submitMove k o s) = .accepted pl t) : Taken s t := by
  cases hm : submitMove k o s with
  | refused r f => rw [hm] at h; cases h
  | accepted sl m u =>
    rw [hm] at h; cases h
    exact (submitMove_event hm).taken

/-! ### Any request -/

theorem Answer.not_refused {r : Reason} {n : Nat} {a : List Byte} {t : State} (h : Answer.refused r n = .accepted a t) :
    False := by
  injection h

theorem Answer.accepted_state {a b : List Byte} {s t : State} (h : Answer.accepted a s = .accepted b t) : s = t := by
  injection h

theorem answerStatus_taken {p : Port} {s t : State} {pl : List Byte} (h : answerStatus p s = .accepted pl t) :
    Taken s t := by
  rw [answerStatus, Answer.accepted.injEq] at h
  rw [← h.2]
  exact setPort_taken rfl rfl rfl rfl

/-- An accepted request but RESTART is taken by its block (R175). -/
theorem answer_taken {p : Port} {r : Request} {s t : State} {pl : List Byte} (h : answer p r s = .accepted pl t)
    (hr : r ≠ .restart) : Taken s t := by
  cases r <;> simp only [answer] at h
  case restart => exact absurd rfl hr
  case status => exact answerStatus_taken h
  case cabinRead => unfold answerCabinRead at h; split at h <;> (first | exact (Answer.not_refused h).elim | (obtain rfl := Answer.accepted_state h)); exact Taken.refl s
  case queueRead => unfold answerQueueRead at h; split at h <;> (first | exact (Answer.not_refused h).elim | (obtain rfl := Answer.accepted_state h)); exact Taken.refl s
  case holdList => obtain rfl := Answer.accepted_state h; exact Taken.refl s
  case moveRead => obtain rfl := Answer.accepted_state h; exact Taken.refl s
  case windRead => obtain rfl := Answer.accepted_state h; exact Taken.refl s
  case inputsRead => obtain rfl := Answer.accepted_state h; exact Taken.refl s
  case faultRead =>
    unfold answerFaultRead at h
    repeat' split at h
    all_goals first | exact (Answer.not_refused h).elim | (obtain rfl := Answer.accepted_state h)
    all_goals exact Taken.refl s
  case trialRead => obtain rfl := Answer.accepted_state h; exact Taken.refl s
  case configGet =>
    unfold answerConfigGet at h
    repeat' split at h
    all_goals first | exact (Answer.not_refused h).elim | (obtain rfl := Answer.accepted_state h)
    exact Taken.refl s
  case configSet =>
    unfold answerConfigSet at h
    split at h
    all_goals first | exact (Answer.not_refused h).elim | (obtain rfl := Answer.accepted_state h)
    next hj => exact configWrite_taken (judgeConfig_speeds hj)
  case commission =>
    unfold answerCommission at h
    repeat' split at h
    all_goals first | exact (Answer.not_refused h).elim | (obtain rfl := Answer.accepted_state h)
    exact commission_taken s
  case decommission =>
    unfold answerDecommission at h
    split at h
    · next k => obtain rfl := Answer.accepted_state h; exact decommission_taken k.2
    · exact (Answer.not_refused h).elim
  case run on =>
    unfold answerRun at h
    repeat' split at h
    all_goals first | exact (Answer.not_refused h).elim | (obtain rfl := Answer.accepted_state h)
    all_goals exact runEnable_taken _ s
  case holdSet a b =>
    unfold answerHoldSet at h
    split at h
    · exact (Answer.not_refused h).elim
    · next hb =>
      dsimp only at h
      repeat' split at h
      all_goals first | exact (Answer.not_refused h).elim | (obtain rfl := Answer.accepted_state h)
      next hc => exact stationInsert_taken (Decidable.not_not.mp hb) hc
  case holdRelease a =>
    unfold answerHoldRelease at h
    dsimp only at h
    repeat' split at h
    all_goals first | exact (Answer.not_refused h).elim | (obtain rfl := Answer.accepted_state h)
    exact (holdRemove_event _ _).taken
  case groupAdd a b c d =>
    unfold answerGroupAdd at h
    split at h
    · exact (Answer.not_refused h).elim
    · next hn => obtain rfl := Answer.accepted_state h; exact groupAdd_taken hn
  case groupWithdraw a =>
    unfold answerGroupWithdraw at h
    repeat' split at h
    all_goals first | exact (Answer.not_refused h).elim | (obtain rfl := Answer.accepted_state h)
    exact withdraw_taken _ s _ _
  case doorRetry a =>
    unfold answerDoorRetry at h
    dsimp only at h
    repeat' split at h
    all_goals first | exact (Answer.not_refused h).elim | (obtain rfl := Answer.accepted_state h)
    exact (queueCommand_event _ _ _).taken
  case factorClear a =>
    unfold answerFactorClear at h
    split at h
    all_goals first | exact (Answer.not_refused h).elim | (obtain rfl := Answer.accepted_state h)
    exact (factorClear_effect _ _).taken
  case moveSubmit a b =>
    unfold answerMoveSubmit at h
    repeat' split at h
    all_goals first | exact (Answer.not_refused h).elim | exact submission_taken h
  case moveCancel a =>
    cases hm : cancelMove a.toNat s with
    | refused r => rw [hm] at h; exact (Answer.not_refused h).elim
    | done u => rw [hm] at h; obtain rfl := Answer.accepted_state h; exact (cancelMove_event hm).taken
  case moveResume a =>
    cases hm : resumeMove a.toNat s with
    | refused r => rw [hm] at h; exact (Answer.not_refused h).elim
    | done u => rw [hm] at h; obtain rfl := Answer.accepted_state h; exact (resumeMove_event hm).taken
  case cabinService a b =>
    unfold answerCabinService at h
    dsimp only at h
    repeat' split at h
    all_goals first | exact (Answer.not_refused h).elim | (obtain rfl := Answer.accepted_state h)
    exact (serviceChange_event _ (servedCabin_manifest _ _)).taken
  case windProfileWrite a b =>
    unfold answerProfileWrite at h
    repeat' split at h
    all_goals first | exact (Answer.not_refused h).elim | (obtain rfl := Answer.accepted_state h)
    exact Aside.taken {}
  case windProfileSelect a =>
    unfold answerProfileSelect at h
    split at h
    all_goals first | exact (Answer.not_refused h).elim | (obtain rfl := Answer.accepted_state h)
    exact (selectProfile_effect _ _).taken
  case faultAck a =>
    unfold answerFaultAck at h
    split at h
    all_goals first | exact (Answer.not_refused h).elim | (obtain rfl := Answer.accepted_state h)
    exact acknowledge_taken _ _
  case faultClear a =>
    unfold answerFaultClear at h
    repeat' split at h
    all_goals first | exact (Answer.not_refused h).elim | (obtain rfl := Answer.accepted_state h)
    exact (setBank_event _ _ _).taken
  case counterClear a =>
    unfold answerCounterClear at h
    split at h
    all_goals first | exact (Answer.not_refused h).elim | (obtain rfl := Answer.accepted_state h)
    exact (setBank_event _ _ _).taken
  case faultMask a b c =>
    unfold answerFaultMask at h
    repeat' split at h
    all_goals first | exact (Answer.not_refused h).elim | (obtain rfl := Answer.accepted_state h)
    exact (setBank_event _ _ _).taken
  case decelTrialStart =>
    unfold answerDecelTrialStart at h
    split at h
    · next k => obtain rfl := Answer.accepted_state h; exact startTrial_taken k
    · exact (Answer.not_refused h).elim
  case clearTrip =>
    unfold answerClearTrip at h
    split at h
    · next k => obtain rfl := Answer.accepted_state h; exact clearTrip_taken k
    · exact (Answer.not_refused h).elim

end Sys2Proof.Machine
end

