-- ==== Sys2Proof/Laws/HoldContent.lean ====
section
/-! SUPPORT. What a change of the hold set leaves in the set and in the records that no change of it reaches: the lemmas
say once what an insertion and a removal put into and take out of the set. -/

namespace Sys2Proof.Machine

/-! ### The relations -/

/-- The records that no change of the hold set reaches. -/
structure Untouched (s t : State) : Prop where
  fbu : t.fbu = s.fbu := by rfl
  cru : t.cru = s.cru := by rfl
  cabins : t.bsq.cabins = s.bsq.cabins := by rfl
  queue : t.bsq.queue = s.bsq.queue := by rfl
  gate : t.bsq.gate = s.bsq.gate := by rfl
  pim : t.pim = s.pim := by rfl

/-- A hand-over of a change, which leaves the hold set as it is. -/
structure HandOver (s t : State) : Prop extends Untouched s t where
  hlu : t.hlu = s.hlu := by rfl

/-- The set's entries but the bring-home entry are as they were, and its levels stay formed. -/
structure OwnEntry (s t : State) : Prop extends Untouched s t where
  hold : ∀ id, id ≠ .boarding → t.hold id = s.hold id
  formed : s.hlu.effective = highestLevel s.hlu.entries → t.hlu.effective = highestLevel t.hlu.entries

theorem Untouched.refl (s : State) : Untouched s s := {}

theorem Untouched.trans {s t u : State} (h : Untouched s t) (k : Untouched t u) : Untouched s u :=
  ⟨k.fbu.trans h.fbu, k.cru.trans h.cru, k.cabins.trans h.cabins, k.queue.trans h.queue, k.gate.trans h.gate,
    k.pim.trans h.pim⟩

theorem HandOver.refl (s : State) : HandOver s s := {}

theorem HandOver.trans {s t u : State} (h : HandOver s t) (k : HandOver t u) : HandOver s u :=
  ⟨h.toUntouched.trans k.toUntouched, k.hlu.trans h.hlu⟩

theorem HandOver.hold {s t : State} (h : HandOver s t) (id : HoldId) : t.hold id = s.hold id := by
  unfold State.hold; rw [h.hlu]

theorem HandOver.own {s t : State} (h : HandOver s t) : OwnEntry s t :=
  ⟨h.toUntouched, fun id _ => h.hold id, by rw [h.hlu]; exact id⟩

theorem OwnEntry.refl (s : State) : OwnEntry s s := (HandOver.refl s).own

theorem OwnEntry.trans {s t u : State} (h : OwnEntry s t) (k : OwnEntry t u) : OwnEntry s u :=
  ⟨h.toUntouched.trans k.toUntouched, fun id hid => (k.hold id hid).trans (h.hold id hid), k.formed ∘ h.formed⟩

/-! ### Hand-overs -/

theorem moveChanged_handOver (sl : Slot) (m : Option Move) (s : State) : HandOver s (moveChanged sl m s) := by
  unfold moveChanged
  cases m <;> exact {}

theorem endMoves_handOver (c : MoveCause) (s : State) : HandOver s (endMoves c s) := by
  have first : HandOver s (match s.mvu.slotA with
      | none => s
      | some m =>
        if m.occupiesA then moveChanged .a (some { m with status := .aborted, cause := some c }) (limitRemove .move s)
        else s) := by
    split
    · exact .refl s
    · split
      · exact HandOver.trans (t := limitRemove .move s) {} (moveChanged_handOver _ _ _)
      · exact .refl s
  unfold endMoves
  dsimp only
  split
  · exact first
  · split
    · exact first.trans (moveChanged_handOver _ _ _)
    · exact first

theorem abortTrial_handOver (c : TrialAbort) (s : State) : HandOver s (abortTrial c s) := by
  unfold abortTrial
  split <;> exact {}

theorem moveUnitLevel_handOver (previous : Level) (s : State) : HandOver s (moveUnitLevel previous s) := by
  unfold moveUnitLevel
  repeat' split
  all_goals first
    | exact .refl s
    | exact (endMoves_handOver _ _).trans (abortTrial_handOver _ _)
    | exact abortTrial_handOver _ _

theorem trip_handOver (s : State) : HandOver s (trip s) := by
  unfold trip
  split <;> exact {}

theorem handToWheel_handOver (previous : Level) (s : State) : HandOver s (handToWheel previous s) := by
  unfold handToWheel
  split
  · exact (trip_handOver s).trans (moveUnitLevel_handOver _ _)
  · exact moveUnitLevel_handOver _ _

/-! ### The set itself -/

theorem holdForm_content (id : HoldId) (c : HoldChange) (v : Option Level) (l : List HoldEntry) (s : State) :
    (holdForm id c v l s).hlu.entries = l ∧ (holdForm id c v l s).hlu.effective = highestLevel l ∧
      Untouched s (holdForm id c v l s) := by
  unfold holdForm
  dsimp only
  split <;> exact ⟨rfl, rfl, {}⟩

theorem find_placeEntry (e : HoldEntry) (l : List HoldEntry) :
    (placeEntry e l).find? (fun x => x.id == e.id) = some e := by
  induction l with
  | nil => simp [placeEntry]
  | cons x xs ih => unfold placeEntry; split <;> simp_all

theorem find_placeEntry_ne (e : HoldEntry) {id : HoldId} (h : id ≠ e.id) (l : List HoldEntry) :
    (placeEntry e l).find? (fun x => x.id == id) = l.find? fun x => x.id == id := by
  induction l with
  | nil => simp [placeEntry, Ne.symm h]
  | cons x xs ih =>
    unfold placeEntry
    split
    · next hx =>
      have h1 : (e.id == id) = false := by simpa using Ne.symm h
      have h2 : (x.id == id) = false := by rw [hx]; exact h1
      simp only [List.find?_cons, h1, h2]
    · simp only [List.find?_cons, ih]

/-- The Hold Unit's own part of an insertion (R136, R138). -/
theorem holdFormInsert_content (id : HoldId) (v : Level) (s : State) :
    Untouched s (holdFormInsert id v s) ∧ (∀ i, i ≠ id → (holdFormInsert id v s).hold i = s.hold i) ∧
      (holdFormInsert id v s).hold id = some { id := id, level := v, time := s.cfs.clock } ∧
      (holdFormInsert id v s).hlu.effective = highestLevel (holdFormInsert id v s).hlu.entries := by
  unfold holdFormInsert
  generalize (if (s.hold id).isSome then HoldChange.replacement else HoldChange.insertion) = c
  obtain ⟨h1, h2, h3⟩ :=
    holdForm_content id c (some v) (placeEntry { id := id, level := v, time := s.cfs.clock } s.hlu.entries) s
  refine ⟨h3, fun i hi => ?_, ?_, by rw [h2, h1]⟩
  · exact (congrArg (List.find? fun x => x.id == i) h1).trans (find_placeEntry_ne _ hi _)
  · exact (congrArg (List.find? fun x => x.id == id) h1).trans
      (find_placeEntry { id := id, level := v, time := s.cfs.clock } s.hlu.entries)

/-- The Hold Unit's own part of a removal (R136, R138). -/
theorem holdFormRemove_content (id : HoldId) (s : State) :
    Untouched s (holdFormRemove id s) ∧ (∀ i, i ≠ id → (holdFormRemove id s).hold i = s.hold i) ∧
      (holdFormRemove id s).hold id = none ∧
      (holdFormRemove id s).hlu.effective = highestLevel (holdFormRemove id s).hlu.entries := by
  unfold holdFormRemove
  obtain ⟨h1, h2, h3⟩ := holdForm_content id .removal none (s.hlu.entries.filter fun e => e.id != id) s
  refine ⟨h3, fun i hi => ?_, ?_, by rw [h2, h1]⟩
  · unfold State.hold
    rw [h1, List.find?_filter]
    congr 1
    funext e
    grind
  · unfold State.hold
    rw [h1, List.find?_eq_none]
    simp

theorem boardingInsert_own (s : State) : OwnEntry s (holdFormInsert .boarding .stop s) :=
  have h := holdFormInsert_content .boarding .stop s
  ⟨h.1, h.2.1, fun _ => h.2.2.2⟩

theorem boardingRemove_own (s : State) : OwnEntry s (holdFormRemove .boarding s) :=
  have h := holdFormRemove_content .boarding s
  ⟨h.1, h.2.1, fun _ => h.2.2.2⟩

theorem bringHomeHandOver_own (s : State) : OwnEntry s (bringHomeHandOver s) := by
  unfold bringHomeHandOver
  split
  · exact (boardingInsert_own s).trans (HandOver.trans (t := notify _ _) {} (handToWheel_handOver _ _)).own
  · exact (boardingRemove_own s).trans (handToWheel_handOver _ _).own
  · exact .refl s

theorem bringHomeJudge_own (s : State) : OwnEntry s (bringHomeJudge s) := by
  unfold bringHomeJudge
  split
  · exact (boardingInsert_own s).trans (HandOver.trans (handToWheel_handOver _ _) {}).own
  · exact (boardingRemove_own s).trans (handToWheel_handOver _ _).own
  · exact .refl s

/-! ### Insertion and removal, whole -/

/-- A removal takes the identity's entry out and leaves every other but the bring-home entry; an absent identity leaves all
(R136). -/
theorem holdRemove_content {id : HoldId} (hid : id ≠ .boarding) (s : State) :
    Untouched s (holdRemove id s) ∧ (∀ i, i ≠ id → i ≠ .boarding → (holdRemove id s).hold i = s.hold i) ∧
      (holdRemove id s).hold id = none ∧
      ((s.hold id).isSome = true → (holdRemove id s).hlu.effective = highestLevel (holdRemove id s).hlu.entries) := by
  unfold holdRemove
  split
  · have h := holdFormRemove_content id s
    have k := (handToWheel_handOver s.hlu.effective (holdFormRemove id s)).own.trans (bringHomeHandOver_own _)
    exact ⟨h.1.trans k.toUntouched, fun i h1 h2 => (k.hold i h2).trans (h.2.1 i h1), (k.hold id hid).trans h.2.2.1,
      fun _ => k.formed h.2.2.2⟩
  · next h => exact ⟨.refl s, fun _ _ _ => rfl, by simpa using h, fun h' => absurd h' h⟩

/-- An insertion at a level above NONE puts the entry at that level and the present time, and leaves every other but the
bring-home entry (R136, R138). -/
theorem holdInsert_content {id : HoldId} {v : Level} (hv : v ≠ .none) (hid : id ≠ .boarding) (s : State) :
    Untouched s (holdInsert id v s) ∧ (∀ i, i ≠ id → i ≠ .boarding → (holdInsert id v s).hold i = s.hold i) ∧
      (holdInsert id v s).hold id = some { id := id, level := v, time := s.cfs.clock } ∧
      (holdInsert id v s).hlu.effective = highestLevel (holdInsert id v s).hlu.entries := by
  unfold holdInsert
  rw [if_neg hv]
  have h := holdFormInsert_content id v s
  have k := (handToWheel_handOver s.hlu.effective (holdFormInsert id v s)).own.trans (bringHomeHandOver_own _)
  exact ⟨h.1.trans k.toUntouched, fun i h1 h2 => (k.hold i h2).trans (h.2.1 i h1), (k.hold id hid).trans h.2.2.1,
    k.formed h.2.2.2⟩

/-! ### A report (R156) -/

theorem slowJudge_hlu (s : State) : (slowJudge s).hlu = s.hlu ∧ (slowJudge s).fbu = s.fbu ∧ (slowJudge s).pim = s.pim := by
  unfold slowJudge
  repeat' split
  all_goals exact ⟨rfl, rfl, rfl⟩

theorem serviceChange_hlu (k : Nat) (c : Cabin) (x : ServiceCause) (s : State) :
    (serviceChange k c x s).hlu = s.hlu ∧ (serviceChange k c x s).fbu = s.fbu ∧ (serviceChange k c x s).pim = s.pim := by
  unfold serviceChange
  obtain ⟨h1, h2, h3⟩ := slowJudge_hlu
    (if c.service = (s.cabin k).service then setCabin k c s
      else notify (.cabinService k c.service c.suspectCount x) (setCabin k c s))
  dsimp only at h1 h2 h3 ⊢
  rw [h1, h2, h3]
  split <;> exact ⟨rfl, rfl, rfl⟩

/-- A bank after an unmasked report, field by field (R159, R161, R163, R164). -/
theorem Bank.reported_bank (b : Bank) (r : FaultRecord) : (b.reported r).1 =
    { b with
      counter := if r.code.cls = .uncorrectable then b.counter else min 4095 (b.counter + 1)
      thresholdReached := b.thresholdReached || (r.code.cls != .uncorrectable && b.threshold != 0
        && decide (b.threshold ≤ min 4095 (b.counter + 1)))
      record :=
        match b.record with
        | none => some r
        | some old => if old.code.cls.code < r.code.cls.code then some r else some old
      overflow := b.overflow || b.record.isSome
      hold :=
        match r.code.action with
        | none => b.hold
        | some a => if b.hold.isSome then some .park else some a } := by
  obtain ⟨rc, ov, ho, ct, tr, th, nc, nd, mk⟩ := b
  unfold Bank.reported Bank.counted Bank.thresholdDue Bank.logged Bank.held
  by_cases hc : r.code.cls = .uncorrectable
  · cases rc <;> cases ha : r.code.action <;> simp [hc] <;> split <;> simp
  · cases rc <;> cases ha : r.code.action <;> simp [hc] <;> (try split) <;> (try simp) <;> cases tr <;> simp

/-- What an unmasked report does to the record of its bank (R161). -/
theorem Bank.reported_disposition (b : Bank) (r : FaultRecord) : (b.reported r).2 =
    match b.record with
    | none => .written
    | some old => if old.code.cls.code < r.code.cls.code then .replaced else .notWritten := by
  obtain ⟨rc, ov, ho, ct, tr, th, nc, nd, mk⟩ := b
  unfold Bank.reported Bank.counted Bank.logged
  by_cases hc : r.code.cls = .uncorrectable <;> cases rc <;> simp [hc] <;> split <;> rfl

/-- An unmasked report replaces its own bank's record and flags, leaves the other banks, and changes no hold entry but its
bank's and the bring-home entry; a bank whose hold level it changes has its entry at that level and the present time. -/
theorem report_content {code : FaultCode} {s : State} (subject : Option Nat) (hm : (s.bank code.bank).masks code = false) :
    let r : FaultRecord :=
      { code := code, subject := subject, angle := s.ptr.angle, time := s.cfs.clock, beforeRestart := false }
    let b := s.bank code.bank
    (report code subject s).bank code.bank = (b.reported r).1 ∧
      (∀ x, x ≠ code.bank → (report code subject s).bank x = s.bank x) ∧ (report code subject s).pim = s.pim ∧
      (∀ i, i ≠ .fault code.bank → i ≠ .boarding → (report code subject s).hold i = s.hold i) ∧
      (∀ a, (b.reported r).1.hold = some a → b.hold ≠ some a →
        (report code subject s).hold (.fault code.bank) =
          some { id := .fault code.bank, level := a.level, time := s.cfs.clock }) ∧
      (s.hlu.effective = highestLevel s.hlu.entries →
        (report code subject s).hlu.effective = highestLevel (report code subject s).hlu.entries) := by
  unfold report
  dsimp only
  rw [if_neg (by rw [hm]; exact Bool.noConfusion)]
  generalize hn : (s.bank code.bank).reported
    { code := code, subject := subject, angle := s.ptr.angle, time := s.cfs.clock, beforeRestart := false } = n
  obtain ⟨v, d⟩ := n
  dsimp only
  generalize h1 : (if v.notifies code then _ else setBank code.bank v s) = s1
  have e1 : s1.hlu = s.hlu ∧ s1.fbu = (setBank code.bank v s).fbu ∧ s1.pim = s.pim ∧ s1.cfs = s.cfs := by
    rw [← h1]; split <;> exact ⟨rfl, rfl, rfl, rfl⟩
  generalize h2 : (if ((s.bank code.bank).counted code).thresholdDue code = true then _ else s1) = s2
  have e2 : s2.hlu = s.hlu ∧ s2.fbu = (setBank code.bank v s).fbu ∧ s2.pim = s.pim ∧ s2.cfs = s.cfs := by
    rw [← h2]; split <;> exact e1
  have finish : ∀ s3 : State,
      s3.hlu = s.hlu ∧ s3.fbu = (setBank code.bank v s).fbu ∧ s3.pim = s.pim ∧ s3.cfs = s.cfs →
      ∀ t : State, t = (match v.hold with
        | none => s3
        | some a => if v.hold = (s.bank code.bank).hold then s3 else holdInsert (.fault code.bank) a.level s3) →
      t.bank code.bank = v ∧ (∀ x, x ≠ code.bank → t.bank x = s.bank x) ∧ t.pim = s.pim ∧
        (∀ i, i ≠ .fault code.bank → i ≠ .boarding → t.hold i = s.hold i) ∧
        (∀ a, v.hold = some a → (s.bank code.bank).hold ≠ some a → t.hold (.fault code.bank) =
          some { id := .fault code.bank, level := a.level, time := s.cfs.clock }) ∧
        (s.hlu.effective = highestLevel s.hlu.entries → t.hlu.effective = highestLevel t.hlu.entries) := by
    intro s3 e3 t ht
    have hold3 : ∀ i, s3.hold i = s.hold i := fun i => by unfold State.hold; rw [e3.1]
    have own : s3.bank code.bank = v := by
      have : s3.bank code.bank = (setBank code.bank v s).bank code.bank := by
        unfold State.bank; rw [e3.2.1]
      rw [this]; cases code.bank <;> rfl
    have others : ∀ x, x ≠ code.bank → s3.bank x = s.bank x := fun x hx => by
      have : s3.bank x = (setBank code.bank v s).bank x := by unfold State.bank; rw [e3.2.1]
      rw [this]
      revert hx; generalize code.bank = y
      cases x <;> cases y <;> intro hx <;> first | rfl | exact absurd rfl hx
    have same : ∀ t : State, Untouched s3 t → (∀ x, t.bank x = s3.bank x) := fun t u x => by
      unfold State.bank; rw [u.fbu]
    rw [ht]
    split
    · next hv =>
      exact ⟨own, others, e3.2.2.1, fun i _ _ => hold3 i, fun a ha => absurd (hv.symm.trans ha) nofun,
        fun h => by rw [e3.1]; exact h⟩
    · next a hv =>
      split
      · next hab =>
        exact ⟨own, others, e3.2.2.1, fun i _ _ => hold3 i, fun a' ha hne => absurd (hab.symm.trans ha) hne,
          fun h => by rw [e3.1]; exact h⟩
      · have lv : a.level ≠ .none := by cases a <;> exact Level.noConfusion
        obtain ⟨u, ho, hi, hf⟩ := holdInsert_content (id := .fault code.bank) lv HoldId.noConfusion s3
        refine ⟨(same _ u _).trans own, fun x hx => (same _ u x).trans (others x hx), u.pim.trans e3.2.2.1,
          fun i h1 h2 => (ho i h1 h2).trans (hold3 i), fun a' ha' _ => ?_, fun _ => hf⟩
        have : a' = a := Option.some.inj (ha'.symm.trans hv)
        rw [this, hi, e3.2.2.2]
  cases code.scope with
  | signal => exact finish s2 e2 _ rfl
  | wheel => exact finish s2 e2 _ rfl
  | cabin =>
    cases subject with
    | none => exact finish s2 e2 _ rfl
    | some k =>
      obtain ⟨a, b, c⟩ := serviceChange_hlu k (suspectAfter s2.cfs.boarding.k (s2.cabin k)) (.fault code) s2
      exact finish (cabinFault code k s2) ⟨a.trans e2.1, b.trans e2.2.1, c.trans e2.2.2.1,
        (cabinFault_event code k s2).cfs.trans e2.2.2.2⟩ _ rfl

end Sys2Proof.Machine
end

