-- ==== Sys2Proof/Laws/Ports.lean ====
section
/-! SUPPORT. The link ports (R173 to R177): what a notice, a taken frame, the transmitter and an arriving frame do to the
ports, and that they keep the ports sound. -/

namespace Sys2Proof.Machine

/-! ### Frame properties -/

/-- A port whose request is being handled: its reply slot is taken, and an idle transmitter leaves no frame waiting. -/
structure PortClaimed (q : PortState) : Prop where
  reply : q.reply.isSome
  idle : q.transmitter = none → q.fifo = []
  fifo : q.fifo.length ≤ 2
  outbox : q.outbox.length ≤ 16

theorem PortSound.frames {q r : PortState} (hf : r.fifo = q.fifo) (hr : r.reply = q.reply)
    (ht : r.transmitter = q.transmitter) (ho : r.outbox = q.outbox) (h : PortSound q) : PortSound r :=
  ⟨by rw [ht, hr, ho]; exact h.idle, by rw [hr, hf]; exact h.taken, by rw [hf]; exact h.fifo,
    by rw [ho]; exact h.outbox⟩

theorem PortClaimed.frames {q r : PortState} (hf : r.fifo = q.fifo) (hr : r.reply = q.reply)
    (ht : r.transmitter = q.transmitter) (ho : r.outbox = q.outbox) (h : PortClaimed q) : PortClaimed r :=
  ⟨by rw [hr]; exact h.reply, by rw [ht, hf]; exact h.idle, by rw [hf]; exact h.fifo, by rw [ho]; exact h.outbox⟩

/-- What a notice does to a port: it is begun, waits, or is dropped (R177). -/
theorem portNotice_cases (n : Notice) (q : PortState) :
    (q.transmitter = none ∧ q.reply = none ∧ q.outbox = [] ∧ portNotice n q = { q with transmitter := some (.notice n) })
    ∨ (¬(q.transmitter = none ∧ q.reply = none ∧ q.outbox = [])
      ∧ (q.outbox.length < 16 ∧ portNotice n q = { q with outbox := q.outbox ++ [n] }
        ∨ 16 ≤ q.outbox.length ∧ portNotice n q = { q with noticeLost := true })) := by
  unfold portNotice
  split
  · next h => exact .inl ⟨h.1, h.2.1, h.2.2, rfl⟩
  · next h =>
    split
    · next k => exact .inr ⟨h, .inl ⟨k, rfl⟩⟩
    · next k => exact .inr ⟨h, .inr ⟨Nat.le_of_not_lt k, rfl⟩⟩

theorem portSound_property : FrameProperty PortSound where
  notice n q h := by
    rcases portNotice_cases n q with ⟨h1, h2, h3, e⟩ | ⟨hn, ⟨hl, e⟩ | ⟨hl, e⟩⟩
    · rw [e]
      exact ⟨fun k => absurd k (Option.some_ne_none _), h.taken, h.fifo, h.outbox⟩
    · rw [e]
      exact ⟨fun k => absurd ⟨k, h.idle k⟩ hn, h.taken, h.fifo, by
        show (q.outbox ++ [n]).length ≤ 16
        rw [List.length_append]; exact hl⟩
    · rw [e]; exact ⟨h.idle, h.taken, h.fifo, h.outbox⟩
  frames _ _ hf hr ht ho h := h.frames hf hr ht ho

theorem portClaimed_property : FrameProperty PortClaimed where
  notice n q h := by
    rcases portNotice_cases n q with ⟨h1, h2, h3, e⟩ | ⟨hn, ⟨hl, e⟩ | ⟨hl, e⟩⟩
    · have := h.reply; simp [h2] at this
    · rw [e]
      exact ⟨h.reply, h.idle, h.fifo, by
        show (q.outbox ++ [n]).length ≤ 16
        rw [List.length_append]; exact hl⟩
    · rw [e]; exact ⟨h.reply, h.idle, h.fifo, h.outbox⟩
  frames _ _ hf hr ht ho h := h.frames hf hr ht ho

/-! ### Reading and writing a port -/

theorem otherPort_ne (p : Port) : otherPort p ≠ p := by cases p <;> exact Port.noConfusion

theorem eq_otherPort {p q : Port} (h : q ≠ p) : q = otherPort p := by
  cases p <;> cases q <;> first | rfl | exact absurd rfl h

/-- What a property that notices keep says of each port. -/
theorem Taken.port {s t : State} (h : Taken s t) {P : PortState → Prop} (hp : FrameProperty P) (q : Port) :
    P (s.port q) → P (t.port q) := by
  cases q
  · exact (h.ports P hp).1
  · exact (h.ports P hp).2

theorem Taken.portsSound {s t : State} (h : Taken s t) (k : PortsSound s) : PortsSound t := fun q =>
  h.port portSound_property q (k q)

theorem Effect.portsSound {s t : State} (h : Effect s t) (k : PortsSound s) : PortsSound t := h.taken.portsSound k

theorem setPort_sound {p : Port} {q : PortState} {s : State} (hq : PortSound q)
    (ho : PortSound (s.port (otherPort p))) : PortsSound (setPort p q s) := by
  intro x
  by_cases hx : x = p
  · rw [hx, setPort_port_self]; exact hq
  · rw [eq_otherPort hx, setPort_port_other (h := otherPort_ne p)]; exact ho

/-! ### A taken frame (R175) -/

theorem readRequest_restart {k : Nat} {payload : List Byte} (h : readRequest k payload = some .restart) : k = 0x0E := by
  unfold readRequest at h
  split at h
  all_goals first
    | rfl
    | (simp only [readNone] at h; split at h <;> simp at h)
    | (simp only [readOne] at h; split at h <;> simp at h)
    | (simp only [readTwo] at h; split at h <;> simp at h)
    | (simp only [readHalf] at h; split at h <;> simp at h)
    | (simp only [readConfigSet] at h; (split at h <;> try split at h) <;> simp at h)
    | (unfold readGroupAdd at h; split at h <;> simp at h)
    | (simp only [readProfileWrite] at h; (split at h <;> try split at h) <;> simp at h)
    | (unfold readFaultMask at h; split at h <;> simp at h)
    | simp at h

/-- What handling a frame leaves at the ports, in the state with the reply slot taken. -/
theorem judgeFrame_ports {p : Port} {f : Frame} {s t : State} {pl : List Byte} (h : judgeFrame p f s = .accepted pl t) :
    (PortClaimed (s.port p) → PortClaimed (t.port p))
      ∧ (PortSound (s.port (otherPort p)) → PortSound (t.port (otherPort p))) := by
  unfold judgeFrame at h
  split at h
  · exact (Answer.not_refused h).elim
  split at h
  · exact (Answer.not_refused h).elim
  next hm =>
  split at h
  · exact (Answer.not_refused h).elim
  next r hr =>
  by_cases hrs : r = .restart
  · subst hrs
    have hk := readRequest_restart hr
    have hp : p = .p1 := by
      cases p
      · rfl
      · rw [hk] at hm; exact absurd (by decide) hm
    subst hp
    simp only [answer, answerRestart] at h
    split at h
    · obtain rfl := Answer.accepted_state h
      have e := (warmReset_effect s).taken
      refine ⟨fun c => e.port portClaimed_property .p1 ?_, fun c => e.port portSound_property .p2 ?_⟩
      · exact ⟨c.reply, fun _ => rfl, Nat.zero_le _, Nat.zero_le _⟩
      · exact ⟨fun _ => ⟨rfl, rfl⟩, fun _ => rfl, Nat.zero_le _, Nat.zero_le _⟩
    · exact (Answer.not_refused h).elim
  · have e := answer_taken h hrs
    exact ⟨e.port portClaimed_property p, e.port portSound_property _⟩

/-- A frame handled from a port whose slot it may take. -/
theorem handleFrame_ports {p : Port} {f : Frame} {s : State} (hi : (s.port p).transmitter = none → (s.port p).fifo = [])
    (hf : (s.port p).fifo.length ≤ 2) (ho : (s.port p).outbox.length ≤ 16) (hs : PortSound (s.port (otherPort p))) :
    PortClaimed ((handleFrame p f s).port p) ∧ PortSound ((handleFrame p f s).port (otherPort p)) := by
  have key : ∀ t : State, PortClaimed (t.port p) → PortSound (t.port (otherPort p)) → ∀ r : Frame,
      PortClaimed ((setPort p { t.port p with reply := some r } t).port p)
        ∧ PortSound ((setPort p { t.port p with reply := some r } t).port (otherPort p)) := by
    intro t hc hs r
    rw [setPort_port_self, setPort_port_other (h := otherPort_ne p)]
    exact ⟨⟨rfl, hc.idle, hc.fifo, hc.outbox⟩, hs⟩
  unfold handleFrame
  dsimp only
  apply key
  all_goals
    cases ha : judgeFrame p f (setPort p { s.port p with reply := some (refusalFrame f .unknownKind 0) } s)
  · exact (judgeFrame_ports ha).1 (by rw [setPort_port_self]; exact ⟨rfl, hi, hf, ho⟩)
  · simp only [answerState]; rw [setPort_port_self]; exact ⟨rfl, hi, hf, ho⟩
  · exact (judgeFrame_ports ha).2 (by rw [setPort_port_other (h := otherPort_ne p)]; exact hs)
  · simp only [answerState]; rw [setPort_port_other (h := otherPort_ne p)]; exact hs

/-! ### Settling (R175, R177) -/

/-- Pumping leaves an idle transmitter only with nothing to send. -/
theorem pumped_idle (q : PortState) : q.pumped.transmitter = none → q.pumped.reply = none ∧ q.pumped.outbox = [] := by
  unfold PortState.pumped
  repeat' split
  · next h => intro k; rw [k] at h; cases h
  · exact fun k => absurd k (Option.some_ne_none _)
  · exact fun _ => ⟨by assumption, by assumption⟩
  · exact fun k => absurd k (Option.some_ne_none _)

theorem pumped_fifo (q : PortState) : q.pumped.fifo = q.fifo := by
  unfold PortState.pumped
  repeat' split
  all_goals rfl

theorem pumped_outbox (q : PortState) : q.pumped.outbox.length ≤ q.outbox.length := by
  unfold PortState.pumped
  repeat' split
  · exact Nat.le_refl _
  · exact Nat.le_refl _
  · exact Nat.le_refl _
  · next h => rw [h]; exact Nat.le_succ _

theorem pumped_claimed {q : PortState} (h : PortClaimed q) :
    (q.pumped.transmitter.isSome ∧ q.pumped.reply.isSome) ∨ (q.pumped.reply = none ∧ q.fifo = []) := by
  unfold PortState.pumped
  split
  · next k => exact .inl ⟨k, h.reply⟩
  · next k =>
    have hr := h.reply
    have hk : q.transmitter = none := by simpa using k
    split
    · exact .inr ⟨rfl, h.idle hk⟩
    · next e => rw [e] at hr; cases hr

/-- A port that is about to take what it can: a waiting reply has the transmitter busy before it, and an idle transmitter
leaves one frame at most to take. -/
structure PortReady (q : PortState) : Prop where
  reply : q.reply.isSome → q.transmitter.isSome
  idle : q.transmitter = none → q.fifo.length ≤ 1
  fifo : q.fifo.length ≤ 2
  outbox : q.outbox.length ≤ 16

theorem portReady_property : FrameProperty PortReady where
  notice n q h := by
    rcases portNotice_cases n q with ⟨h1, h2, h3, e⟩ | ⟨hn, ⟨hl, e⟩ | ⟨hl, e⟩⟩
    · rw [e]
      exact ⟨fun _ => rfl, fun k => absurd k (Option.some_ne_none _), h.fifo, h.outbox⟩
    · rw [e]
      exact ⟨h.reply, h.idle, h.fifo, by
        show (q.outbox ++ [n]).length ≤ 16
        rw [List.length_append]; exact hl⟩
    · rw [e]; exact ⟨h.reply, h.idle, h.fifo, h.outbox⟩
  frames q r hf hr ht ho h :=
    ⟨by rw [hr, ht]; exact h.reply, by rw [ht, hf]; exact h.idle, by rw [hf]; exact h.fifo, by rw [ho]; exact h.outbox⟩

theorem takeFrame_nil {p : Port} {s : State} (h : (s.port p).fifo = []) : takeFrame p s = s := by
  unfold takeFrame; rw [h]

theorem takeFrame_busy {p : Port} {s : State} (h : (s.port p).reply.isSome) : takeFrame p s = s := by
  unfold takeFrame
  split
  · rfl
  · split
    · next k => rw [k] at h; cases h
    · rfl

theorem takeFrame_cons {p : Port} {s : State} {f : Frame} {rest : List Frame} (h : (s.port p).fifo = f :: rest)
    (hr : (s.port p).reply = none) :
    takeFrame p s = handleFrame p f (setPort p { s.port p with fifo := rest } s) := by
  unfold takeFrame; rw [h]; exact if_pos hr

theorem pump_port (p : Port) (s : State) : (pump p s).port p = (s.port p).pumped := setPort_port_self ..

theorem pump_port_other (p : Port) (s : State) : (pump p s).port (otherPort p) = s.port (otherPort p) :=
  setPort_port_other (h := otherPort_ne p) ..

/-- A port that is ready is sound once it has settled, and so is the other one. -/
theorem settlePort_sound {p : Port} {s : State} (h : PortReady (s.port p)) (hs : PortSound (s.port (otherPort p))) :
    PortsSound (settlePort p s) := by
  have pack : ∀ t : State, PortSound (t.port p) → PortSound (t.port (otherPort p)) → PortsSound t := fun t h1 h2 x => by
    by_cases hx : x = p
    · rw [hx]; exact h1
    · rw [eq_otherPort hx]; exact h2
  unfold settlePort
  cases hr : (s.port p).reply with
  | some r =>
    have hi : (s.port p).reply.isSome := by rw [hr]; rfl
    have hp : (s.port p).pumped = s.port p := by unfold PortState.pumped; rw [if_pos (h.reply hi)]
    rw [takeFrame_busy hi, takeFrame_busy (by rw [pump_port, hp]; exact hi)]
    refine pack _ ?_ (by rw [pump_port_other]; exact hs)
    rw [pump_port, hp]
    refine ⟨fun k => ?_, fun k => ?_, h.fifo, h.outbox⟩
    · have := h.reply hi; rw [k] at this; cases this
    · rw [k] at hi; cases hi
  | none =>
    cases hf : (s.port p).fifo with
    | nil =>
      rw [takeFrame_nil hf, takeFrame_nil (by rw [pump_port, pumped_fifo, hf])]
      refine pack _ ?_ (by rw [pump_port_other]; exact hs)
      rw [pump_port]
      exact ⟨pumped_idle _, fun _ => by rw [pumped_fifo, hf], by rw [pumped_fifo]; exact h.fifo,
        Nat.le_trans (pumped_outbox _) h.outbox⟩
    | cons f rest =>
      rw [takeFrame_cons hf hr]
      have h2 := h.fifo
      rw [hf] at h2
      obtain ⟨hc, ho⟩ := handleFrame_ports (p := p) (f := f) (s := setPort p { s.port p with fifo := rest } s)
        (by
          rw [setPort_port_self]
          intro k
          have := h.idle k
          rw [hf] at this
          exact List.length_eq_zero_iff.mp (Nat.le_zero.mp (Nat.le_of_succ_le_succ this)))
        (by rw [setPort_port_self]; exact Nat.le_of_succ_le h2) (by rw [setPort_port_self]; exact h.outbox)
        (by rw [setPort_port_other (h := otherPort_ne p)]; exact hs)
      generalize handleFrame p f (setPort p { s.port p with fifo := rest } s) = u at hc ho
      rcases pumped_claimed hc with ⟨k1, k2⟩ | ⟨k1, k2⟩
      · rw [takeFrame_busy (by rw [pump_port]; exact k2)]
        refine pack _ ?_ (by rw [pump_port_other]; exact ho)
        rw [pump_port]
        exact ⟨pumped_idle _, fun k => (by rw [k] at k2; cases k2), by rw [pumped_fifo]; exact hc.fifo,
          Nat.le_trans (pumped_outbox _) hc.outbox⟩
      · rw [takeFrame_nil (by rw [pump_port, pumped_fifo, k2])]
        refine pack _ ?_ (by rw [pump_port_other]; exact ho)
        rw [pump_port]
        exact ⟨pumped_idle _, fun _ => by rw [pumped_fifo, k2], by rw [pumped_fifo]; exact hc.fifo,
          Nat.le_trans (pumped_outbox _) hc.outbox⟩

/-! ### The ports' events (R152, R173, R174, R177) -/

theorem transmitDone_sound {p : Port} {s : State} (h : PortsSound s) : PortsSound (transmitDone p s) := by
  unfold transmitDone
  split
  · refine settlePort_sound ?_ ?_
    · rw [pump_port, setPort_port_self]
      have hp := h p
      refine ⟨fun k => ?_, fun k => ?_, by rw [pumped_fifo]; exact hp.fifo, Nat.le_trans (pumped_outbox _) hp.outbox⟩
      · rw [Option.isSome_iff_ne_none]
        intro e
        rw [(pumped_idle _ e).1] at k
        cases k
      · rw [pumped_fifo]
        show (s.port p).fifo.length ≤ 1
        have hr : (s.port p).reply = none := by
          cases e : (s.port p).reply with
          | none => rfl
          | some r =>
            have : ({ s.port p with transmitter := none } : PortState).pumped.transmitter = some (.reply r) := by
              unfold PortState.pumped; simp [e]
            rw [this] at k; cases k
        rw [hp.taken hr]; exact Nat.zero_le _
    · rw [pump_port_other, setPort_port_other (h := otherPort_ne p)]; exact h _
  · exact h

theorem presenceHeard_taken (p : Port) (s : State) : Taken s (presenceHeard p s) :=
  (holdRemove_event _ _).taken.trans (Taken.ite (setPort_taken rfl rfl rfl rfl) (Taken.refl _))

theorem shortFifo_property : FrameProperty fun q => q.fifo.length < 2 where
  notice n q h := by
    rcases portNotice_cases n q with ⟨_, _, _, e⟩ | ⟨_, ⟨_, e⟩ | ⟨_, e⟩⟩ <;> rw [e] <;> exact h
  frames _ _ hf _ _ _ h := by rw [hf]; exact h

theorem frameArrives_sound {p : Port} {f : Frame} {s : State} (h : PortsSound s) : PortsSound (frameArrives p f s) := by
  unfold frameArrives
  split
  · next hl =>
    have e := presenceHeard_taken p s
    have hl' : ((presenceHeard p s).port p).fifo.length < 2 := e.port shortFifo_property p hl
    have hs := e.portsSound h
    generalize presenceHeard p s = u at hl' hs
    have hp := hs p
    unfold joinFifo
    refine settlePort_sound ?_ (by rw [setPort_port_other (h := otherPort_ne p)]; exact hs _)
    rw [setPort_port_self]
    refine ⟨fun k => ?_, fun k => ?_, by
      show ((u.port p).fifo ++ [f]).length ≤ 2
      rw [List.length_append]; exact hl', hp.outbox⟩
    · rw [Option.isSome_iff_ne_none]
      intro e
      have := (hp.idle e).1
      rw [this] at k; cases k
    · show ((u.port p).fifo ++ [f]).length ≤ 1
      rw [hp.taken (hp.idle k).1]; exact Nat.le_refl _
  · exact (report_effect _ _ _).portsSound h

/-! ### A free port (R175) -/

theorem emptyFifo_property : FrameProperty fun q => q.fifo = [] where
  notice n q h := by
    rcases portNotice_cases n q with ⟨_, _, _, e⟩ | ⟨_, ⟨_, e⟩ | ⟨_, e⟩⟩ <;> rw [e] <;> exact h
  frames _ _ hf _ _ _ h := by rw [hf]; exact h

/-- A handled frame leaves the FIFO of its port empty if it was. -/
theorem handleFrame_fifo {p : Port} {f : Frame} {s : State} (h : (s.port p).fifo = []) :
    ((handleFrame p f s).port p).fifo = [] := by
  have h' : ((setPort p { s.port p with reply := some (refusalFrame f .unknownKind 0) } s).port p).fifo = [] := by
    rw [setPort_port_self]; exact h
  unfold handleFrame
  dsimp only
  rw [setPort_port_self]
  cases ha : judgeFrame p f (setPort p { s.port p with reply := some (refusalFrame f .unknownKind 0) } s) with
  | refused r n => exact h'
  | accepted pl t =>
    unfold judgeFrame at ha
    split at ha
    · exact (Answer.not_refused ha).elim
    split at ha
    · exact (Answer.not_refused ha).elim
    split at ha
    · exact (Answer.not_refused ha).elim
    next r hr =>
    by_cases hrs : r = .restart
    · subst hrs
      simp only [answer, answerRestart] at ha
      split at ha
      · obtain rfl := Answer.accepted_state ha
        refine (warmReset_effect _).taken.port emptyFifo_property p ?_
        cases p <;> rfl
      · exact (Answer.not_refused ha).elim
    · exact (answer_taken ha hrs).port emptyFifo_property p h'

theorem holdRemove_absent {id : HoldId} {s : State} (h : s.hold id = none) : holdRemove id s = s := by
  unfold holdRemove; rw [h]; rfl

/-- A valid frame at a free port is taken and answered in the event of its arrival. -/
theorem frameArrives_free {p : Port} {f : Frame} {s : State} (h : PortFree p s) :
    frameArrives p f s = pump p (handleFrame p f (heard p s)) := by
  have e : presenceHeard p s = heard p s := by
    unfold presenceHeard
    rw [holdRemove_absent h.link]
    rfl
  have hp : ((heard p s).port p).fifo = [] ∧ ((heard p s).port p).reply = none := by
    unfold heard
    split
    · rw [setPort_port_self]; exact ⟨h.fifo, h.reply⟩
    · exact ⟨h.fifo, h.reply⟩
  unfold frameArrives
  rw [h.fifo, if_pos (by decide), e]
  unfold settlePort
  have ht : takeFrame p (joinFifo p f (heard p s)) = handleFrame p f (heard p s) := by
    rw [takeFrame_cons (f := f) (rest := [])]
    · unfold joinFifo
      rw [setPort_setPort, setPort_port_self]
      congr 1
      have : ({ (heard p s).port p with fifo := [] } : PortState) = (heard p s).port p := by
        rw [← hp.1]
      rw [this, setPort_same]
    · unfold joinFifo; rw [setPort_port_self, hp.1]; rfl
    · unfold joinFifo; rw [setPort_port_self]; exact hp.2
  rw [ht]
  exact takeFrame_nil (by rw [pump_port, pumped_fifo]; exact handleFrame_fifo hp.1)

/-- A request accepted at a free port. -/
theorem request_accepted {p : Port} {f : Frame} {s t : State} {pl : List Byte} (h : PortFree p s)
    (ha : judgeFrame p f (taken p f s) = .accepted pl t) :
    frameArrives p f s = withReply p (acceptedReply f pl) t := by
  rw [frameArrives_free h]
  unfold handleFrame
  dsimp only
  rw [show judgeFrame p f (setPort p _ (heard p s)) = _ from ha]
  rfl

/-- A request refused at a free port. -/
theorem request_refused {p : Port} {f : Frame} {s : State} {reason : Reason} {n : Nat} (h : PortFree p s)
    (ha : judgeFrame p f (taken p f s) = .refused reason n) :
    frameArrives p f s = withReply p (refusalFrame f reason n) (heard p s) := by
  rw [frameArrives_free h]
  unfold handleFrame
  dsimp only
  rw [show judgeFrame p f (setPort p _ (heard p s)) = _ from ha]
  simp only [answerState, replyFrame, withReply, setPort_port_self, setPort_setPort]

/-! ### What taking a frame keeps inside -/

theorem handleFrame_inner {p : Port} {f : Frame} {s : State} (i : Inner s) : Inner (handleFrame p f s) := by
  have port : ∀ (q : PortState) (t : State), Inner t → Inner (setPort p q t) := fun q t i =>
    i.same rfl rfl rfl rfl rfl rfl
  unfold handleFrame
  dsimp only
  apply port
  cases ha : judgeFrame p f (setPort p { s.port p with reply := some (refusalFrame f .unknownKind 0) } s) with
  | refused r n => exact port _ _ i
  | accepted pl t =>
    have i' := port { s.port p with reply := some (refusalFrame f .unknownKind 0) } s i
    unfold judgeFrame at ha
    split at ha
    · exact (Answer.not_refused ha).elim
    split at ha
    · exact (Answer.not_refused ha).elim
    split at ha
    · exact (Answer.not_refused ha).elim
    next r hr =>
    by_cases hrs : r = .restart
    · subst hrs
      simp only [answer, answerRestart] at ha
      split at ha
      · obtain rfl := Answer.accepted_state ha
        exact warmReset_inner i'
      · exact (Answer.not_refused ha).elim
    · exact (answer_taken ha hrs).inner i'

theorem handleFrame_pending {p : Port} {f : Frame} {s : State} : (handleFrame p f s).pending = s.pending := by
  unfold handleFrame
  dsimp only
  show (answerState _ _).pending = _
  cases ha : judgeFrame p f (setPort p { s.port p with reply := some (refusalFrame f .unknownKind 0) } s) with
  | refused r n => rfl
  | accepted pl t =>
    unfold judgeFrame at ha
    split at ha
    · exact (Answer.not_refused ha).elim
    split at ha
    · exact (Answer.not_refused ha).elim
    split at ha
    · exact (Answer.not_refused ha).elim
    next r hr =>
    by_cases hrs : r = .restart
    · subst hrs
      simp only [answer, answerRestart] at ha
      split at ha
      · obtain rfl := Answer.accepted_state ha
        exact (warmReset_effect _).pending
      · exact (Answer.not_refused ha).elim
    · exact (answer_taken ha hrs).pending

theorem takeFrame_inner {p : Port} {s : State} (i : Inner s) : Inner (takeFrame p s) := by
  unfold takeFrame
  split
  · exact i
  · split
    · exact handleFrame_inner (i.same rfl rfl rfl rfl rfl rfl)
    · exact i

theorem takeFrame_pending {p : Port} {s : State} : (takeFrame p s).pending = s.pending := by
  unfold takeFrame
  split
  · rfl
  · split
    · exact handleFrame_pending
    · rfl

theorem pump_inner {p : Port} {s : State} (i : Inner s) : Inner (pump p s) :=
  i.same rfl rfl rfl rfl rfl rfl

theorem settlePort_inner {p : Port} {s : State} (i : Inner s) : Inner (settlePort p s) :=
  takeFrame_inner (pump_inner (takeFrame_inner i))

theorem settlePort_pending {p : Port} {s : State} : (settlePort p s).pending = s.pending :=
  takeFrame_pending.trans takeFrame_pending

end Sys2Proof.Machine
end

