-- ==== Sys2Proof/Tests/Slice0.lean ====
section
/-! SUPPORT. Tests: an ill-formed term for each check of WellFormed; the worked examples of the spec, with the values that the
spec prints; and, for each statement with hypotheses, states and operands that meet them, clause by clause. -/

-- One theorem at a time: elaborated side by side, the waiting ones each hold a thread, and the joined text outgrows its memory.
set_option Elab.async false

namespace Sys2Proof.Tests

open Sys2Proof Sys2Proof.Machine

/-! ### Helpers -/

/-- The state after a command. -/
def after (i : Instr) (s : State) : State :=
  match exec i s with
  | .next t => t
  | .fault _ => s
  | .refused _ => s

/-- Whether a CONFIG_SET is accepted by its judgement. -/
def isAccepted : ConfigJudgement → Bool
  | .accepted _ _ _ _ => true
  | .refused _ _ => false

/-- The reference wheel in SERVICE, referenced with cabin 6 at its load line, braked and confirmed, calm, nothing on the
lines. -/
def calm : State :=
  { State.reset with
    lkp := .cold
    hlu := .cold
    wmn := { Wmn.cold with level := .calm, calmRuns := false, warmUp := 240 }
    roc := { Roc.cold with brakeConfirmed := true, driveReady := true, brakeSet := true, runEnable := true }
    ptr := { Ptr.cold with referenced := true, angle := 40960 }
    cfs := { Cfs.cold with device := .service } }

/-- calm with the Rotation Controller in a state at a commanded speed. -/
def moving (r : Rotation) (v : Nat) : State :=
  { calm with roc := { calm.roc with rotation := r, vCmd := v, driveRef := driveWord v } }

/-- calm with a Position Tracker. -/
def tracking (p : Ptr) : State := { calm with ptr := p }

/-- calm with cabin 6 in a phase. -/
def inPhase (ph : Phase) : State := setCabin 6 { Cabin.cold with phase := ph } calm

/-- calm with a transaction to cabin 6 in flight. -/
def asking (retry : Bool) (wait : Option Nat) : State :=
  { calm with cru := { calm.cru with
      running := true, flight := some { cabin := 6, command := .poll, retry := retry, carried := false, wait := wait } } }

/-- calm with port 1 replaced. -/
def onPort (q : PortState) : State := setPort .p1 q calm

/-- calm with a move in slot A and one in slot B. -/
def withMoves (a b : Option Move) : State := { calm with mvu := { calm.mvu with slotA := a, slotB := b } }

/-- A move record to cabin 8. -/
def toCabin8 (number : Nat) (status : MoveStatus) : Move :=
  { number := number, kind := .stopCabin 8, origin := .platformDesk, status := status, target := 57344, arrivalError := none,
    cause := none }

/-- A group record. -/
def party (id : Nat) (accessible : Bool) : Group :=
  { id := id, size := 4, declared := some 320, source := .declared, accessible := accessible, accepted := 0 }

/-- calm with a queue. -/
def queued (q : List Group) : State := { calm with bsq := { calm.bsq with queue := q } }

/-- calm with one hold entry. -/
def heldBy (id : HoldId) (v : Level) : State :=
  { calm with hlu := { entries := [{ id := id, level := v, time := 0 }], effective := v, other := v } }

/-- A presence timer toward 10 s. -/
def timerAt (elapsed : Nat) : Option PresenceTimer := some { elapsed := elapsed, time := 10 }

theorem calm_free (p : Port) : PortFree p calm := by cases p <;> exact ⟨rfl, rfl, rfl, rfl⟩

/-! ### WellFormed refuses an ill-formed term of each check -/

theorem test_request_needs_values : (Request.configSet 1 0 []).wellFormed = false := by decide

theorem test_profile_request_needs_seventeen : (Request.windProfileWrite 0 (List.replicate 16 1)).wellFormed = false := by
  decide

theorem test_reply_of_six_bytes : (Instr.ringReplyReceived [6, 1, 4, 0, 0, 0]).wellFormed = false := by decide

theorem test_known_kind : (Instr.requestUnknownKind .p1 0 0x21 []).wellFormed = false := by decide

theorem test_payload_too_long : (Instr.requestUnknownKind .p1 0 0x22 (List.replicate 201 0)).wellFormed = false := by
  decide +kernel

theorem test_no_values_in_any_table :
    (Instr.configSetGeometry .p1 0 0 []).wellFormed = false ∧ (Instr.configSetZones .p1 0 0 []).wellFormed = false ∧
    (Instr.configSetSpeeds .p1 0 0 []).wellFormed = false ∧ (Instr.configSetRing .p1 0 0 []).wellFormed = false ∧
    (Instr.configSetBoarding .p1 0 0 []).wellFormed = false ∧ (Instr.configSetBalance .p1 0 0 []).wellFormed = false ∧
    (Instr.configSetWindChannels .p1 0 1 []).wellFormed = false ∧ (Instr.configSetInputs .p1 0 0 []).wellFormed = false ∧
    (Instr.configSetFaultCtl .p1 0 1 []).wellFormed = false ∧ (Instr.configSetLink .p1 0 1 []).wellFormed = false := by
  decide

theorem test_forty_values : (Instr.configSetSpeeds .p1 0 0 (List.replicate 40 (1, 260))).wellFormed = false := by decide

theorem test_profile_of_eighteen : (Instr.windProfileWrite .p1 0 0 (List.replicate 18 1)).wellFormed = false := by decide

theorem test_encoder_step_too_long :
    (Instr.encoderCount 2147483648).wellFormed = false ∧ (Instr.encoderCount (-2147483649)).wellFormed = false := by decide

/-! ### Check codes (11.6, Worked check codes) -/

theorem test_crc16_of_digits : crc16 [0x31, 0x32, 0x33, 0x34, 0x35, 0x36, 0x37, 0x38, 0x39] = 0x29B1 := by decide +kernel

theorem test_crc16_register : crc16 [2] = 0xC1B2 ∧ crc16 [2, 1] = 0x6B4C ∧ crc16 [2, 1, 0] = 0x91CD := by decide +kernel

theorem test_status_request_on_the_wire : (requestFrame 0 .status).wire = [0xC3, 0x02, 0x01, 0x00, 0x91, 0xCD] := by
  decide +kernel

theorem test_crc8_of_digits : crc8 [0x31, 0x32, 0x33, 0x34, 0x35, 0x36, 0x37, 0x38, 0x39] = 0xF4 := by decide +kernel

theorem test_poll_on_the_ring :
    ({ cabin := 6, command := .poll, retry := false, carried := false, wait := none } : Transaction).wire =
      [0x06, 0x01, 0x79] := by decide +kernel

/-! ### Position (chapter 1's worked examples) -/

theorem test_index_corrects_by_two :
    let p : Ptr := { Ptr.cold with
      angle := 294900, referenced := true, sample := 1000000, counter := 1000014, latch := some 1000010 }
    p.delta = 14 ∧ p.markAngle .cold 1000010 = 294910 ∧ p.newAngle .cold .cold = 4 ∧ p.mismatches .cold .cold = false := by
  decide +kernel

theorem test_index_mismatch :
    let p : Ptr := { Ptr.cold with
      angle := 294840, referenced := true, sample := 1000000, counter := 1000014, latch := some 1000010 }
    p.newAngle .cold .cold = 4 ∧ p.mismatches .cold .cold = true := by decide +kernel

theorem test_where_the_cabins_are :
    [4, 5, 6, 7, 8].map (Geometry.cold.position 40960) = [16384, 8192, 0, -8192, -16384] ∧
    [4, 5, 6, 7, 8].map (fun k => Zones.cold.inWindow (Geometry.cold.position 40960 k)) = [false, true, true, true, false] ∧
    Geometry.cold.forward 40960 (Geometry.cold.lineAngle 7 (-4096)) = 4096 := by decide +kernel

theorem test_lines_passed :
    Zones.cold.passed 8185 8192 = [.x] ∧ Zones.cold.passed (-7) 0 = [.l] ∧ Zones.cold.passed (-8199) (-8192) = [] := by
  decide +kernel

theorem test_measured_speed : [140, 141, 203, 204].map (fun d => measuredSpeed 1278 [d]) = [178, 180, 259, 260] := by
  decide +kernel

theorem test_jump_limit : jumpLimit .cold .cold = 37 := by decide

/-! ### Rotation (chapter 2's worked examples) -/

theorem test_drive_words :
    [1000, 174000, 176000, 178000, 180000, 260000].map driveWord = [109, 19005, 19223, 19442, 19660, 28398] := by decide

theorem test_slow_point :
    [470, 355, 354].map (fun r => calm.curveLimit 260000 { origin := .slow, line := 0, limitSpeed := 180, margin := false,
                                                           remaining := r, overrunReported := false })
      = [281, 260, 259] := by decide +kernel

theorem test_door_that_locks_late :
    [(392, 180000), (385, 178000), (378, 176000)].map (fun x => calm.curveLimit x.2
        { origin := .door 5, line := 0, limitSpeed := 0, margin := true, remaining := x.1, overrunReported := false })
      = [176, 175, 172] := by decide +kernel

theorem test_start_releases_brake :
    (after .controlUpdate calm).roc.rotation = .releasing ∧ (after .controlUpdate calm).roc.target = 260 := by decide +kernel

theorem test_first_update_of_a_run :
    let t := after .controlUpdate (after .brakeReleasedArrival (after .controlUpdate calm))
    t.roc.rotation = .running ∧ t.roc.vCmd = 1000 ∧ t.roc.driveRef = 109 := by decide +kernel

/-! ### Moves and trials (chapter 3's worked examples) -/

theorem test_move_to_cabin_8 :
    calm.moveTarget (.stopCabin 8) = 57344 ∧ calm.moveRemaining (.stopCabin 8) = 16384 ∧
    (tracking { calm.ptr with angle := 57341 }).moveTarget (.advance 2) = 73725 := by decide +kernel

theorem test_trial_results :
    (trialDistance 700 1278, trialMeasured 260 894, trialCandidate 37) = (894, 37, 32) ∧
    (trialDistance 600 1278, trialMeasured 255 766, trialCandidate 42) = (766, 42, 36) ∧
    (trialDistance 1000 1278, trialMeasured 180 1278, trialCandidate 12) = (1278, 12, 10) ∧
    offerDecel .cold (min 40 32) 40 = 32 ∧ offerDecel .cold (min 40 36) 32 = 36 := by decide

/-! ### Balance (chapter 6's worked case) -/

/-- The wheel of the worked case: 600, 400 and 300 kg in cabins 1, 10 and 19. -/
def loaded : State :=
  let s := { calm with bsq := { calm.bsq with angles := some (angleTable 36) } }
  formSums (setNode 1 { Node.cold with load := 600 } (setNode 10 { Node.cold with load := 400 }
    (setNode 19 { Node.cold with load := 300 } s)))

theorem test_angle_table :
    [1, 4, 10, 19, 22].map (anglePair 36) = [(4096, 0), (3547, 2048), (0, 4096), (-4096, 0), (-3547, -2048)] := by
  decide +kernel

theorem test_balance_sums :
    loaded.bsq.sumX = 1228800 ∧ loaded.bsq.sumY = 1638400 ∧ loaded.bsq.sumQ = 4194304000000 ∧
    loaded.balanceAdmits 320 4 = false ∧ loaded.balanceAdmits 320 22 = true := by decide +kernel

/-! ### Wind (chapter 7's worked example) -/

/-- The ring of the worked example. -/
def windRing : List Nat := [150, 152, 160, 171, 168, 175, 180, 176, 170, 165, 162, 158]

theorem test_wind_samples :
    [30, 500].map (fun n => ChannelRec.rawSample { ChannelRec.cold with kc := 512, pulses := n }) = [60, 1000] := by decide

theorem test_gust_and_mean :
    listSum windRing / 12 = 165 ∧ meanUpdate true 25600 windRing = 25631 ∧
    meanUpdate true 25600 [101, 101, 101, 101] = 25600 ∧ meanUpdate true 25600 [99, 99, 99, 99] = 25599 := by decide

theorem test_reference_profile_is_valid : profileRelationFailure Profile.cold.values = none := by decide

/-! ### Link, layouts, commissioning, resets -/

theorem test_clearance_check : roomNeeded .cold .cold = 1234 ∧ roomAvailable .cold .cold = 5234 := by decide

theorem test_commission_names_check_five :
    commissionFailure { State.reset with cfs := { Cfs.cold with zones := { Zones.cold with c := 7500 } } } = some 5 := by
  decide +kernel

theorem test_status_length : (statusPayload State.reset).length = 94 := by decide +kernel

theorem test_cold_reset : after .coldResetEnd (after .coldReset State.reset) = State.reset := by decide +kernel

theorem test_hold_at_park_trips : (after (.holdSet .p2 0 1 5) calm).roc.rotation = .tripped := by decide +kernel

theorem test_hold_reply_begins :
    ((after (.holdSet .p2 9 1 5) calm).port .p2).transmitter =
      some (.reply { kind := 0x50, tag := 9, payload := [1, 5, 1, 5] }) := by decide +kernel

theorem test_presence_loss_holds :
    (after (.presenceTimerExpiry .p2) (setPort .p2 { PortState.cold with presence := timerAt 10000 } calm)).hlu.effective
      = .noBoard := by decide +kernel

/-- R152: a frame taken first removes the need, and the expiry that waits behind it inserts nothing. -/
theorem test_frame_before_expiry_inserts_nothing :
    let reached := setPort .p2 { PortState.cold with presence := timerAt 10000 } calm
    (after (.presenceTimerExpiry .p2) (frameArrives .p2 (requestFrame 0 .status) reached)).hlu.entries = [] := by decide +kernel

/-- R151: while the LINK entry stands a running timer keeps its time, and the written one is for its next start. -/
theorem test_link_write_beside_entry_waits :
    let s := setPort .p2 { PortState.cold with presence := timerAt 5000 } (heldBy (.link .p2) .noBoard)
    let t := linkWrite .p2 60 .stop true false s
    (t.port .p2).presence = timerAt 5000 ∧ (t.port .p2).presenceTime = 60 ∧
    ((linkWrite .p2 60 .stop true false calm).port .p2).presence = some { elapsed := 0, time := 60 } := by decide +kernel

/-! ### Witnesses: the step, invariants, frames -/

/-- calm with every timer one millisecond before its time. -/
def almostDue : State :=
  let q : PortState := { PortState.cold with presence := timerAt 9999, receiver := .inFrame [] 29 }
  { calm with
    roc := { calm.roc with releaseTimer := some 2999, standTimer := some 19999, brakeSetTimer := some 1999, grace := some 1999 }
    cru := { calm.cru with
      flight := some { cabin := 6, command := .poll, retry := false, carried := false, wait := some 19 } }
    pim := { calm.pim with inputs := calm.pim.inputs.map fun x => { x with timer := some 19 } }
    lkp := { p1 := q, p2 := q }
    time := { calm.time with control := 49, sample := 249, second := 999 } }

theorem witness_EmptyQueueTicks :
    (almostDue.pending = [] ∧ almostDue.time.resetHeld = false ∧ (coldReset calm).pending = [] ∧
      (coldReset calm).time.resetHeld = true) ∧
    (50 ≤ almostDue.time.control + 1 ∧ 250 ≤ almostDue.time.sample + 1 ∧ 1000 ≤ almostDue.time.second + 1) ∧
    almostDue.cfs.speeds.tStand * 1000 = 19999 + 1 ∧ almostDue.cfs.ring.tNode = 19 + 1 ∧
    (almostDue.input 15).timer = some 19 ∧ (almostDue.port .p2).presence = timerAt 9999 ∧ 10 * 1000 = 9999 + 1 := by decide +kernel

theorem witness_EveryCommandCompletes :
    (coldReset calm).time.resetHeld = true ∧ actsUnderReset .controlUpdate = false ∧
    actsUnderReset (.status .p1 0) = false := by decide

theorem heldBy_sound : HoldsSound (heldBy (.controlRoom 15) .slow).hlu where
  legal := by
    intro e he
    obtain rfl : e = { id := .controlRoom 15, level := .slow, time := 0 } := by simpa [heldBy] using he
    exact ⟨by decide, by decide⟩
  distinct := by decide
  restrictive := by decide
  stations := by intro p; cases p <;> decide
  effective := rfl
  other := rfl

/-- calm at GUSTY, with the first group in MISMATCH at SLOW, the link bank pending and CRC_ERROR masked. -/
def owned : State :=
  { calm with
    wmn := { calm.wmn with level := .gusty }
    pim := { calm.pim with g0 := { calm.pim.g0 with level := .slow, isMatch := false } }
    fbu := { calm.fbu with link := { calm.fbu.link with hold := some .stop, mask := 0x100000 } }
    hlu :=
      { entries := [{ id := .wind, level := .noBoard, time := 0 }, { id := .inputs .g0, level := .slow, time := 0 },
                    { id := .fault .link, level := .stop, time := 0 }]
        effective := .stop, other := .stop } }

theorem owned_masks : owned.fbu.link.mask.getLsbD 20 = true ∧ ∀ i < 32, i ≠ 20 → owned.fbu.link.mask.getLsbD i = false := by
  decide +kernel

theorem owned_agrees : EntriesAgree owned where
  wind := by decide
  inputs := by intro g; cases g <;> decide
  banks := by intro b; cases b <;> decide
  masks := by
    intro b i h
    cases b
    case link =>
      by_cases hi : i = 20
      · exact ⟨.crcError, by rw [hi]; rfl, rfl, rfl⟩
      · by_cases h32 : i < 32
        · exact absurd ((owned_masks.2 i h32 hi).symm.trans h) nofun
        · exact absurd ((BitVec.getLsbD_of_ge _ _ (by omega)).symm.trans h) nofun
    all_goals exact absurd (BitVec.getLsbD_zero.symm.trans h) nofun

theorem owned_sound : HoldsSound owned.hlu where
  legal := by
    intro e he
    simp only [owned, List.mem_cons, List.not_mem_nil, or_false] at he
    rcases he with rfl | rfl | rfl <;> trivial
  distinct := by decide
  restrictive := by decide
  stations := by intro p; cases p <;> decide
  effective := rfl
  other := rfl

/-- heldBy with the list full of DOOR entries beside a MOVE and a SLOW entry, both slots taken, and a trial that measures. -/
def engaged : State :=
  { heldBy (.controlRoom 15) .slow with
    roc := { (moving .running 0).roc with trialStep := true, limits :=
      [LimitOrigin.door 5, .move, .door 6, .slow, .door 7, .door 8].map fun o =>
        { origin := o, line := 0, limitSpeed := 0, margin := true, remaining := 0, overrunReported := false } }
    mvu := { calm.mvu with
      trial := { Trial.cold with status := .measuring }
      slotA := some (toCabin8 17 .arrived)
      slotB := some (toCabin8 18 .pending) } }

theorem engaged_sound : BlocksSound engaged where
  holds := heldBy_sound
  wheel := ⟨by decide, by decide, by decide, by decide, by decide, by decide, by decide⟩
  points := ⟨by decide, by decide⟩
  moves := ⟨by decide, by decide⟩
  groups := ⟨by decide, by decide⟩

theorem witness_StepKeepsBlocksSound :
    (BlocksSound engaged ∧ engaged.pendingB = true ∧ ∃ t, step engaged = .next t) ∧
    HoldsSound owned.hlu ∧ EntriesAgree owned ∧ ∃ t, step owned = .next t :=
  ⟨⟨engaged_sound, rfl, _, rfl⟩, owned_sound, owned_agrees, _, rfl⟩

theorem witness_StepKeepsPortsSound : PortsSound calm ∧ ∃ t, step calm = .next t :=
  ⟨fun p => by cases p <;> exact ⟨by decide, by decide, by decide, by decide⟩, _, rfl⟩

theorem witness_SoundHoldSetHoldsTwenty : HoldsSound (heldBy (.controlRoom 15) .slow).hlu := heldBy_sound

theorem witness_RequestsReadBack :
    (Request.configSet 1 0 [(1, 36)]).wellFormed = true ∧
    (Request.configSet 1 0 (List.replicate 39 (1, 36))).wellFormed = true ∧
    (Request.windProfileWrite 1 (List.replicate 17 1)).wellFormed = true ∧ Request.status.wellFormed = true := by decide

theorem witness_WireBytesMakeFrame :
    calm.time.resetHeld = false ∧ (calm.port .p1).receiver = .hunting ∧ (calm.port .p2).receiver = .hunting ∧
    (List.replicate 200 (0 : Byte)).length ≤ 200 := by decide +kernel

/-- A reset held over pins that are present: the cold reset's end finds BRAKE_SET and an input. -/
theorem witness_ColdResetLeavesDefaults :
    let pins := setInput 3 { raw := true, filtered := false, timer := none } calm
    let t := after .coldResetEnd (after .coldReset pins)
    calm.time.resetHeld = false ∧ (after .coldReset pins).time.resetHeld = true ∧
    (t.roc.brakeConfirmed = true ∧ t.roc.brakeSetTimer = none ∧ t.input 3 = { raw := true, filtered := true, timer := none }) ∧
    (State.reset.roc.brakeConfirmed = false ∧ State.reset.roc.brakeSetTimer = some 0) := by decide +kernel

/-! ### Witnesses: the control update -/

theorem witness_ControlUpdateMovesWheelAngle :
    let p := calm.ptr
    let d (x : Ptr) : Int := (x.counter - x.sample).toInt
    let lost := tracking { p with referenced := false, latch := some 0, angle := 0 }
    (calm.time.resetHeld = false ∧ p.latch = none ∧ ¬(37 : Int) < d { p with counter := 37 } ∧
      (37 : Int) < d { p with counter := 38 } ∧ ¬(37 : Int) < d { p with counter := -1, latch := some 0 }) ∧
    (lost.ptr.referenced = false ∧ (after .controlUpdate lost).ptr.referenced = true ∧
      (after .controlUpdate lost).passRecord 1 = some .l ∧ (after .controlUpdate lost).passRecord 35 = none) ∧
    p.referenced = true ∧ d { p with counter := -1 } ≤ 0 ∧ d p ≤ 0 := by decide +kernel

/-- R6, R13, R14: a jump beyond 37 counts, a delta below -8, and a mark off by more than 24 counts are reported. -/
theorem witness_ControlUpdateMovesWheelAngle_reports :
    let turned (n : Count) := tracking { calm.ptr with counter := n }
    let marked (angle : Nat) (referenced : Bool) := tracking { calm.ptr with
      angle := angle, referenced := referenced, sample := 1000000, counter := 1000014, latch := some 1000010 }
    let reported (s : State) := (after .controlUpdate s).fbu.rotation.record.map FaultRecord.code
    [turned 37, turned 38, turned (-8), turned (-9)].map reported = [none, some .encoderJump, none, some .reverseMotion] ∧
    [marked 294900 true, marked 294840 true, marked 294840 false].map reported = [none, some .indexMismatch, none] ∧
    (after .controlUpdate (turned 38)).ptr.referenced = false ∧ (after .controlUpdate (marked 0 false)).ptr.referenced = true := by
  decide +kernel

/-- calm before an update that takes its angle from old to new. -/
def turning (old : Nat) (new : Count) : State := tracking { calm.ptr with angle := old, counter := new - BitVec.ofNat 32 old }

/-- R9: at one update cabin 5 passes X and cabin 6 L, cabin 5 first. -/
theorem witness_ControlUpdateMovesWheelAngle_crossings :
    let s := turning 40955 40960
    let t := after .controlUpdate s
    let g := s.cfs.geometry
    let z := s.cfs.zones
    let passes (k : Nat) (ln : PlatformLine) : Prop :=
      g.position s.ptr.angle k < z.line ln ∧ z.line ln ≤ g.position t.ptr.angle k ∧
        lineRank (s.passRecord k) < lineRank (some ln)
    let raised := [((5 : Nat), PlatformLine.x), (6, .l)]
    (s.cfs.device = .service ∧ s.ptr.referenced = true ∧ (s.ptr.counter - s.ptr.sample).toInt = 5 ∧ s.ptr.latch = none) ∧
    (t.passRecord 5 = some .x ∧ t.passRecord 6 = some .l ∧ t.passRecord 7 = none) ∧
    (g.position t.ptr.angle 6 = z.line .l ∧ (after .controlUpdate (turning 40955 40959)).passRecord 6 = none) ∧
    (after .controlUpdate (turning 41070 41088)).passRecord 5 = none ∧
    (∀ k ln, (k, ln) ∈ raised ↔ 1 ≤ k ∧ k ≤ g.n ∧ passes k ln) ∧
    raised.Pairwise (fun a b => g.position t.ptr.angle b.1 < g.position t.ptr.angle a.1 ∨
      (a.1 = b.1 ∧ lineRank (some a.2) < lineRank (some b.2))) ∧
    updateWheel s = overrunCheck (clearLeavers (raised.foldl
      (fun u c => crossing c.1 c.2 (noteSlowCrossed c.1 c.2 (setPassRecord c.1 (some c.2) u)))
      (encoderReports s.ptr (settleUpdate s)))) := by
  refine ⟨by decide +kernel, by decide +kernel, by decide +kernel, by decide +kernel, ?_, by decide +kernel, by decide +kernel⟩
  have low : ∀ k < 37, ∀ ln ∈ allLines, ((k, ln) ∈ [((5 : Nat), PlatformLine.x), (6, .l)] ↔ 1 ≤ k ∧ k ≤ 36 ∧
      calm.cfs.geometry.position 40955 k < calm.cfs.zones.line ln ∧
      calm.cfs.zones.line ln ≤ calm.cfs.geometry.position (after .controlUpdate (turning 40955 40960)).ptr.angle k ∧
        lineRank (calm.passRecord k) < lineRank (some ln)) := by decide +kernel
  intro k ln
  by_cases h : k < 37
  · exact low k h ln (by cases ln <;> decide)
  · constructor
    · intro m
      simp only [List.mem_cons, Prod.mk.injEq, List.not_mem_nil, or_false] at m
      omega
    · intro m
      exact absurd (Nat.lt_succ_of_le m.2.1) h

theorem witness_ControlUpdateMeasuresSpeed :
    (tracking { calm.ptr with history := List.replicate 19 7 }).ptr.history.length < 20 ∧
    (tracking { calm.ptr with history := List.replicate 20 7 }).ptr.history.length = 20 ∧
    (calm.ptr.counter - calm.ptr.sample).toInt = 0 ∧
    (((7 : Count) - calm.ptr.sample).toInt ≠ 0) := by decide

/-- A DOOR entry of cabin 6 with a remaining travel. -/
def doorEntry (remaining : Int) : LimitPoint :=
  { origin := .door 6, line := 49152, limitSpeed := 0, margin := true, remaining := remaining, overrunReported := false }

/-- calm with cabin 6 closing and its DOOR entry with a remaining travel, the wheel in a state at a commanded speed. -/
def closingAt (r : Rotation) (v : Nat) (remaining : Int) : State :=
  { inPhase .closing with
    roc := { (moving r v).roc with limits := [doorEntry remaining] }
    ptr := { calm.ptr with zeroRun := 10, standstill := true } }

/-- A trial step in force, with the wheel standing still or not. -/
def trying (still : Bool) : State :=
  { moving .running 0 with
    roc := { (moving .running 0).roc with trialStep := true }
    ptr := { calm.ptr with zeroRun := if still then 10 else 0, standstill := still } }

/-- calm under a level cap, unreferenced or not, its limit points given. -/
def capped (v : Level) (referenced : Bool) (limits : List LimitPoint) : State :=
  { heldBy (.controlRoom 1) v with
    ptr := { calm.ptr with referenced := referenced }
    roc := { (moving .running 0).roc with limits := limits } }

/-- R28 to R30 and R33: each term in its turn sets the target. -/
theorem witness_RunningUpdateRamps_terms :
    let slow : LimitPoint := { origin := .slow, line := 0, limitSpeed := 180, margin := false, remaining := 354,
                               overrunReported := false }
    ((moving .running 0).speedTarget 0 = (260, .runOff) ∧
      ({ calm with roc := { calm.roc with runEnable := false } }).speedTarget 0 = (0, .runOff)) ∧
    ((capped .slow true []).speedTarget 0 = (calm.cfs.speeds.capSlow, .level) ∧ (capped .park true []).speedTarget 0 = (0, .level)) ∧
    ((capped .none false []).speedTarget 0 = (180, .unreferenced) ∧
      (capped .none true [doorEntry 60000]).speedTarget 0 = (180, .platform)) ∧
    ((capped .none true [slow]).speedTarget 260000 = (259, .curve .slow) ∧
      (capped .none true [slow, doorEntry 0]).speedTarget 0 = (0, .curve (.door 6))) ∧
    ((withMoves (some (toCabin8 17 .arrived)) none).curveLimit 0
      { origin := .move, line := 0, limitSpeed := 0, margin := false, remaining := 1000, overrunReported := false } = 0) := by
  decide +kernel

theorem witness_RunningUpdateRamps :
    let w := updateWheel (moving .running 100000)
    let x := updateWheel (moving .running 260000)
    let y := updateWheel (closingAt .running 1000 0)
    (w.roc.rotation = .running ∧ w.roc.trialStep = false ∧ 100000 < (w.speedTarget w.roc.vCmd).1 * 1000 ∧
      x.roc.rotation = .running ∧ x.roc.trialStep = false ∧ (x.speedTarget x.roc.vCmd).1 * 1000 ≤ 260000) ∧
    (y.roc.rotation = .running ∧ y.roc.trialStep = false ∧ y.ptr.standstill = true ∧ (y.cabin 6).phase = .closing ∧
      y.roc.limits = [doorEntry 0] ∧ y.curveLimit 1000 (doorEntry 0) = 0 ∧
      (after .controlUpdate (closingAt .running 1000 0)).roc.vCmd = 0) ∧
    ((updateWheel (trying true)).roc.trialStep = true ∧ (updateWheel (trying true)).ptr.standstill = true ∧
      (updateWheel (trying false)).roc.trialStep = true ∧ (updateWheel (trying false)).ptr.standstill = false) ∧
    ((closingAt .running 0 (-129)).roc.limits.map LimitPoint.origin).Nodup ∧
    ((-129 : Int) < -(calm.cfs.zones.o : Int) ∧ -(calm.cfs.zones.o : Int) ≤ -128) ∧
    (calm.bank .rotation).mask.getLsbD 3 = false := by decide +kernel

/-- calm with the Rotation Controller changed. -/
def braking (f : Roc → Roc) : State := updateWheel { calm with roc := f calm.roc }

theorem witness_RestingUpdateReleasesOrStays :
    let w := braking id
    let released := braking fun r => { r with brakeReleased := true }
    let unready := braking fun r => { r with driveReady := false }
    let off := braking fun r => { r with runEnable := false }
    let standing := updateWheel (moving .standing 0)
    let stopped := updateWheel { moving .standing 0 with roc := { (moving .standing 0).roc with runEnable := false } }
    (w.roc.rotation = .braked ∧ w.roc.runEnable = true ∧ w.cfs.device = .service ∧ 0 < (w.reportedTarget 0).1 ∧
      w.roc.brakeConfirmed = true ∧ w.roc.driveReady = true ∧ w.roc.brakeReleased = false) ∧
    (released.roc.rotation = .braked ∧ 0 < (released.reportedTarget 0).1 ∧ released.roc.brakeReleased = true) ∧
    (unready.roc.rotation = .braked ∧ 0 < (unready.reportedTarget 0).1 ∧ unready.roc.driveReady = false) ∧
    (off.roc.rotation = .braked ∧ off.roc.runEnable = false) ∧
    (standing.roc.rotation = .standing ∧ 0 < (standing.speedTarget 0).1) ∧
    (State.reset.cfs.device = .config ∧ calm.roc.brakeConfirmed = true ∧ (moving .tripped 0).roc.rotation = .tripped ∧
      (trying true).roc.trialStep = true ∧ State.reset.roc.brakeConfirmed = false) ∧
    (stopped.roc.rotation = .standing ∧ (stopped.speedTarget 0).1 = 0) := by decide +kernel

/-- A running wheel whose measured speed has been off for a number of updates. -/
def losing (n : Nat) : State := { moving .running 260000 with roc := { (moving .running 260000).roc with tracking := n } }

theorem losing_sound : BlocksSound (losing 19) where
  holds := ⟨nofun, by decide, nofun, fun p => by cases p <;> decide, rfl, rfl⟩
  wheel := ⟨by decide, by decide, by decide, by decide, by decide, by decide, by decide⟩
  points := ⟨by decide, by decide⟩
  moves := ⟨by decide, by decide⟩
  groups := ⟨by decide, by decide⟩

theorem witness_tracksOff :
    let off (s : State) : Prop := tracksOff (updateWheel s) (rotationStep (updateWheel s))
    (off (losing 19) ∧ (rotationStep (updateWheel (losing 19))).roc.tracking = 19) ∧
    (off (losing 18) ∧ (rotationStep (updateWheel (losing 18))).roc.tracking = 18) ∧
    ¬off (moving .running 0) ∧ ¬off calm := by
  unfold tracksOff
  decide +kernel

/-- R25, R38: in a sound state the 20th check that finds the speed off trips the wheel, and the 19th does not; so does
DECEL_INSUFFICIENT in a pending bank. A tripped wheel stays, at target 0 and HELD. -/
theorem witness_TripsAtPark :
    let insufficient : State := setBank .rotation { Bank.cold 8 with hold := some .stop } { trying true with
      mvu := { calm.mvu with trial := { Trial.cold with status := .measuring, v0 := some 260, counts := some 2000 } } }
    (BlocksSound (losing 19) ∧ (updateWheel (losing 19)).roc.rotation = .running ∧
      ((updateWheel (losing 19)).bank .rotation).mask.getLsbD 2 = false ∧
      ((updateWheel (losing 19)).bank .rotation).hold ≠ some .park) ∧
    [losing 18, losing 19, insufficient].map (fun s => (after .controlUpdate s).roc.rotation) =
      [.running, .tripped, .tripped] ∧
    (after .controlUpdate (moving .tripped 0)).roc = { (moving .tripped 0).roc with target := 0, limiting := .held } :=
  ⟨⟨losing_sound, by decide +kernel, by decide +kernel, by decide +kernel⟩, by decide +kernel, by decide +kernel⟩

/-- R36, R43: a trip between two updates sets the line to 0 and leaves STATUS the word of the latest update, at bytes 20 and
21; the next update's word is 0. -/
theorem test_status_keeps_word_of_update :
    let run := after .controlUpdate (moving .running 260000)
    let tripped := after (.holdSet .p2 0 1 5) run
    let next := after .controlUpdate tripped
    [run, tripped, next].map (fun s => (s.roc.driveRef, s.roc.updateRef)) = [(28398, 28398), (0, 28398), (0, 0)] ∧
    [tripped, next].map (fun s => ((statusPayload s).drop 20).take 2) = [[0x6E, 0xEE], [0, 0]] := by decide +kernel

theorem witness_DerivedUpdateCommandsRunUpdate :
    let still := tracking { calm.ptr with zeroRun := 9 }
    (still.ptr.counter = still.ptr.sample ∧ 9 ≤ still.ptr.zeroRun ∧ still.ptr.standstill = false) ∧
    calm.ptr.zeroRun < 9 ∧ (7 : Count) ≠ calm.ptr.sample ∧ (closingAt .standing 0 0).ptr.standstill = true := by decide +kernel

/-! ### Witnesses: registers, lines and timers -/

theorem witness_CountersCount : calm.time.resetHeld = false := rfl

theorem witness_FeedbackLinesAct :
    let releasing := { calm with roc := { calm.roc with rotation := .releasing, releaseTimer := some 1100 } }
    let setting := { calm with roc := { calm.roc with brakeSetTimer := some 1999 } }
    (releasing.roc.rotation = .releasing ∧ releasing.roc.releaseTimer.isSome = true) ∧ calm.roc.rotation ≠ .releasing ∧
    setting.roc.brakeSetTimer.isSome = true ∧ (calm.roc.brakeSetTimer = none ∧ calm.roc.rotation = .braked) ∧
    ((moving .running 0).roc.brakeSetTimer = none ∧ (moving .running 0).roc.rotation ≠ .braked ∧
      (moving .running 0).roc.rotation ≠ .tripped) ∧
    calm.roc.brakeReleased = false ∧ State.reset.roc.brakeSet = false := by decide

theorem witness_RotationTimersExpire :
    let releasing := { calm with roc := { calm.roc with rotation := .releasing, releaseTimer := some 3000 } }
    let standing := { calm with roc := { calm.roc with rotation := .standing, standTimer := some 20000 } }
    let setting := { calm with roc := { calm.roc with brakeSetTimer := some 2000 } }
    (releasing.roc.releaseTimer.isSome = true ∧ releasing.roc.rotation = .releasing) ∧ calm.roc.releaseTimer = none ∧
    (standing.roc.standTimer.isSome = true ∧ standing.roc.rotation = .standing) ∧ calm.roc.standTimer = none ∧
    setting.roc.brakeSetTimer.isSome = true ∧ calm.roc.brakeSetTimer = none := by decide

/-- A record of a code in the rotation bank. -/
def recorded (c : FaultCode) : State :=
  setBank .rotation
    { Bank.cold 8 with record := some { code := c, subject := none, angle := 0, time := 0, beforeRestart := false } } calm

theorem witness_ReportFillsBankAndHoldsRide :
    (FaultCode.crcError.scope = .signal ∧ (owned.bank .link).mask.getLsbD (FaultCode.crcError.number - 1) = true ∧
      (calm.bank .link).mask.getLsbD (FaultCode.crcError.number - 1) = false) ∧
    (FaultCode.brakeSetTimeout.cls = .uncorrectable ∧ FaultCode.speedOverBoard.cls ≠ .uncorrectable) ∧
    ((calm.bank .rotation).record = none ∧ (recorded .brakeSetTimeout).fbu.rotation.record.isSome = true ∧
      FaultCode.speedOverBoard.cls.code < FaultCode.brakeSetTimeout.cls.code) ∧
    (FaultCode.crcError.action = none ∧ FaultCode.brakeSetTimeout.action = some .park ∧
      FaultCode.indexMismatch.action = some .stop ∧ (calm.bank .rotation).hold = none ∧ (owned.bank .link).hold = some .stop ∧
      (setBank .ring { Bank.cold 32 with hold := some .park } calm).fbu.ring.hold = some .park) ∧
    (FaultCode.doorCloseLate.scope = .cabin ∧ 36 ≤ calm.bsq.cabins.length ∧ calm.cfs.boarding.k = 3 ∧
      (setCabin 36 { Cabin.cold with suspectCount := 2 } calm).cfs.boarding.k ≤ min 15 (2 + 1)) ∧
    (FaultCode.presenceLost.cls = .deferred ∧ (calm.bank .link).noticeDeferred = true ∧
      FaultCode.crcError.cls = .correctable ∧ (calm.bank .link).noticeCorrectable = false) := by decide +kernel

/-! ### Witnesses: ring and pass -/

/-- calm with cabins 3 and 6 in the window list, a command pending for cabin 6, a slot kind and a window pointer. -/
def ringing (slot : SlotKind) (last : Option Nat) : State :=
  let s := setNode 6 { Node.cold with pending := some .close } (setCabin 3 { Cabin.cold with phase := .loading } calm)
  { s with cru := { s.cru with nextSlot := slot, windowPointer := last, roundPointer := 36 } }

/-- R64, R66 to R68: a window slot takes the member after the pointer, around the end; an empty list makes a round slot. -/
theorem witness_RingTriesAndFails_next :
    let begun (s : State) := ((endTransaction s).cru.flight.map fun t => (t.cabin, t.command, t.carried),
      (endTransaction s).cru.nextSlot)
    (∀ k, k ∈ [(3 : Nat), 6] ↔ 1 ≤ k ∧ k ≤ (ringing .window none).cfs.geometry.n ∧
      (((ringing .window none).cabin k).phase ≠ .away ∨ ((ringing .window none).node k).pending.isSome = true ∨
        (ringing .window none).hasDoor k = true)) ∧
    [none, some 3, some 6].map (fun w => begun (ringing .window w)) =
      [(some (3, .poll, false), .round), (some (6, .door .close, true), .round), (some (3, .poll, false), .round)] ∧
    ((endTransaction (ringing .window (some 3))).node 6).taken = true ∧
    begun (ringing .round (some 3)) = (some (1, .poll, false), .window) ∧
    begun { calm with cru := { calm.cru with roundPointer := 35 } } = (some (36, .poll, false), .window) ∧
    (calm.cru.nextSlot = .window ∧ calm.cfs.device = .service ∧ State.reset.cfs.device = .config) := by
  refine ⟨?_, by decide +kernel, by decide +kernel, by decide +kernel, by decide +kernel, by decide +kernel⟩
  have low : ∀ k < 37, (k ∈ [(3 : Nat), 6] ↔ 1 ≤ k ∧ k ≤ 36 ∧
      (((ringing .window none).cabin k).phase ≠ .away ∨ ((ringing .window none).node k).pending.isSome = true ∨
        (ringing .window none).hasDoor k = true)) := by decide +kernel
  intro k
  by_cases h : k < 37
  · exact low k h
  · constructor
    · intro m
      simp only [List.mem_cons, List.not_mem_nil, or_false] at m
      omega
    · intro m
      exact absurd (Nat.lt_succ_of_le m.2.1) h

theorem witness_RingTriesAndFails :
    (calm.cru.flight = none ∧ (asking false none).cru.flight.isSome = true ∧
      (asking true (some 20)).cru.flight =
        some { cabin := 6, command := .poll, retry := true, carried := false, wait := some 20 } ∧
      6 ≤ (asking true (some 20)).cru.nodes.length ∧ 6 ≤ (asking true (some 20)).bsq.cabins.length) ∧
    (((asking true (some 20)).node 6).state ≠ .silent ∧ ((asking true (some 20)).cabin 6).phase = .away ∧
      ((setNode 6 { Node.cold with state := .silent } (asking true (some 20))).node 6).state = .silent ∧
      ((setCabin 6 { Cabin.cold with phase := .closing } (asking true (some 20))).cabin 6).phase = .closing) := by decide

theorem witness_GoodReplyFillsNode :
    ((asking false (some 0)).cru.flight =
        some { cabin := 6, command := .poll, retry := false, carried := false, wait := some 0 } ∧
      6 ≤ (asking false (some 0)).cru.nodes.length ∧ Door.ofCode (1 : Byte).toNat = some .opened ∧
      Door.ofCode (5 : Byte).toNat = some .doorFault) ∧
    ([6, 1, 4, 0, 0, 0] : List Byte).length ≠ 7 ∧ crc8 [6, 1, 4, 0, 0, 0] + 1 ≠ crc8 [6, 1, 4, 0, 0, 0] ∧
    (7 : Byte).toNat ≠ 6 ∧ (2 : Byte).toNat ≠ RingCommand.poll.code ∧ (0 : Byte).toNat = 0 ∧ 5 < (6 : Byte).toNat := by
  decide +kernel

/-- R61, R65, R72 to R74: a good reply's effects, each on a wheel in which it is due. -/
theorem test_good_reply_effects :
    let reply (body : List Byte) (s : State) := after (.ringReplyReceived (body ++ [crc8 body])) s
    let carrying : State := setNode 6 { Node.cold with pending := some .close, taken := true }
      { inPhase .closing with cru := { (asking false (some 0)).cru with
          flight := some { cabin := 6, command := .door .close, retry := false, carried := true, wait := some 0 } } }
    let ring (s : State) := s.fbu.ring.record.map FaultRecord.code
    ([carrying, asking false (some 0)].map fun s => ((reply [6, 3, 4, 0, 0, 0] s).node 6).pending) = [none, none] ∧
    ((reply [6, 3, 4, 0, 0, 0] carrying).cabin 6).lockTime = some 0 ∧
    ring (reply [6, 1, 4, 0, 0, 0] (asking true (some 0))) = some .nodeRetryOk ∧
    ring (reply [6, 1, 4, 0x0F, 0xA1, 0] (asking false (some 0))) = some .loadOverRange ∧
    ((reply [6, 1, 4, 0x0F, 0xA1, 0] (asking false (some 0))).node 6).load = 4000 ∧
    ring (reply [6, 1, 1, 0, 0, 0] (asking false (some 0))) = some .doorOpenAway ∧
    ring (reply [6, 1, 4, 0, 0, 2] (asking false (some 0))) = some .nodeSelfCheck := by decide +kernel

/-- R79: the X crossing of a cabin still ARRIVING. -/
theorem test_arriving_cabin_at_x :
    let c := (crossing 6 .x (setCabin 6 { Cabin.cold with phase := .arriving, cleanPass := true } calm)).cabin 6
    c.phase = .away ∧ c.lastPass = some (.notReleased .position) ∧ c.cleanPass = false := by decide +kernel

/-- R82, R83: the first failing condition of the release is the sub-cause, whatever fails after it. -/
theorem test_release_refusal_order :
    let refused (s : State) := ((crossing 6 .d s).cabin 6).lastPass
    let doors (s : State) : State := { s with roc := { s.roc with
      limits := [1, 2, 3, 4].map fun k => { doorEntry 0 with origin := .door k } } }
    let beyond (s : State) : State := doors { s with ptr := { s.ptr with angle := 49152 } }
    let fast (s : State) : State := let b := beyond s; { b with ptr := { b.ptr with speed := 191 } }
    let level (s : State) : State := { fast s with hlu := (heldBy (.controlRoom 1) .park).hlu }
    let silent (s : State) : State := setNode 6 { Node.cold with state := .silent } (level s)
    let out (s : State) : State := setCabin 6 { Cabin.cold with phase := .arriving, service := .outOfService } (silent s)
    [out, silent, level, fast, beyond, doors].map (fun f => refused (f (inPhase .arriving))) =
      [SubCause.notInService, .nodeSilent, .level, .speed, .position, .pointListFull].map fun c => some (.notReleased c) := by
  decide +kernel

theorem witness_CrossingsTakeCabinThrough :
    let s := inPhase .arriving
    let fast := tracking { calm.ptr with speed := 191 }
    ((calm.cabin 6).phase = .away ∧ 6 ≤ calm.bsq.cabins.length ∧ 6 ≤ calm.cru.nodes.length) ∧
    ((s.cabin 6).phase = .arriving ∧ (s.cabin 6).service ≠ .outOfService ∧ (s.node 6).state ≠ .silent ∧
      s.hlu.effective ≠ .park ∧ s.ptr.speed ≤ (s.cfs.speeds.board : Int) + 10 ∧
      s.cfs.geometry.position s.ptr.angle 6 < s.cfs.zones.x ∧ s.doorCount < 4) ∧
    ¬fast.ptr.speed ≤ (fast.cfs.speeds.board : Int) + 10 ∧
    ({ Trial.cold with status := .measuring } : Trial).status = .measuring ∧
    (((inPhase .loading).cabin 6).phase = .loading ∧ ((inPhase .unloading).cabin 6).phase = .unloading ∧
      ((inPhase .closing).cabin 6).phase = .closing ∧ (inPhase .closing).hasDoor 6 = false ∧
      (closingAt .standing 0 0).hasDoor 6 = true ∧ ((inPhase .passing).cabin 6).phase = .passing) ∧
    ((closingAt .standing 0 0).hasDoor 6 = true ∧ ((inPhase .closing).cabin 6).lockTime = none ∧
      ({ Cabin.cold with phase := .closing, lockTime := some 7 } : Cabin).lockTime = some 7) ∧
    (RingCommand.door .close = .door .close ∧ RingCommand.poll ≠ .door .close ∧
      ((inPhase .doorHold).cabin 6).closeAnswered = false) ∧
    ({ Cabin.cold with service := .suspect, cleanPass := true, lockTime := some 0 } : Cabin).lockTime.isSome = true ∧
    (PlatformLine.c, Phase.away) ∉ [(PlatformLine.d, Phase.arriving), (.l, .unloading), (.c, .loading), (.c, .unloading),
      (.x, .closing), (.x, .doorHold), (.x, .passing), (.x, .unloading), (.x, .loading), (.x, .arriving)] := by decide +kernel

/-- R77, R90: the lock report of a pass sets the lock time over one that an earlier pass left; a later poll leaves it. -/
theorem test_lock_report_sets_time_of_pass :
    let late (s : State) : State :=
      setCabin 6 { Cabin.cold with phase := .closing, closeAnswered := true, lockTime := some 7 }
        { s with cfs := { s.cfs with clock := 90 } }
    ((lockReport 6 (late (closingAt .standing 0 0))).cabin 6).lockTime = some 90 ∧
    ((lockReport 6 (late (inPhase .closing))).cabin 6).lockTime = some 7 := by decide +kernel

/-- calm with cabin 6 loading with an open door and a queue. -/
def boarding (q : List Group) : State :=
  setNode 6 { Node.cold with state := .answering, door := .opened } { inPhase .loading with
    bsq := { (inPhase .loading).bsq with queue := q } }

theorem witness_EvaluationAdmitsHead :
    let s := boarding [party 1 false]
    (s.bsq.queue = party 1 false :: [] ∧ 6 ≤ s.bsq.cabins.length ∧ (s.cabin 6).admittedThisPass = false ∧
      s.hlu.effective = .none ∧ s.ptr.referenced = true ∧ (s.cabin 6).service = .inService ∧
      (s.node 6).state = .answering ∧ (s.node 6).door = .opened ∧ (party 1 false).accessible = false ∧
      (party 1 false).size ≤ s.cfs.boarding.capacity ∧
      (s.node 6).load + s.partyMass (party 1 false) ≤ s.cfs.boarding.maxLoad ∧ s.balanceAdmits 320 6 = true) ∧
    ((party 1 true).accessible = true ∧ (boarding [party 1 true]).mvu.slotA = none) ∧
    ((heldBy .balance .slow).hold .balance).isSome = true ∧ (calm.hold .balance = none ∧ loaded.bsq.sumQ ≤ (500 * 4096) ^ 2) ∧
    (formSums (setNode 1 { Node.cold with load := 601 } { calm with bsq := { calm.bsq with angles := some (angleTable 36) } })).hold
      .balance = some { id := .balance, level := .slow, time := 0 } := by decide +kernel

/-! ### Witnesses: wind and inputs -/

/-- calm with a channel record for the hub and a VALID platform channel in a wind of 8.0 m/s. -/
def windy (c : ChannelRec) : State :=
  { calm with wmn := { calm.wmn with channels :=
      { hub := c, platform := { ChannelRec.cold with enable := true, validity := .valid, ring := List.replicate 12 80,
                                                     pulses := 80, kc := 256 }
        river := .cold } } }

theorem witness_WindSampleFormsGustAndMean :
    calm.time.resetHeld = false ∧ ((windy .cold).channel .hub).enable = false ∧
    ((windy { ChannelRec.cold with enable := true, ring := List.replicate 11 1 }).channel .hub).ring.length < 12 ∧
    ((windy .cold).channel .platform).ring.length = 12 ∧ ((windy .cold).channel .platform).sampleCount ≠ 3 ∧
    ((windy { ChannelRec.cold with enable := true, sampleCount := 3 }).channel .hub).sampleCount = 3 := by decide

theorem witness_WindLevelFollowsSample :
    let high (level : WindLevel) (n : Nat) : State :=
      { calm with wmn := { calm.wmn with level := level, calm := n, channels := (windy .cold).wmn.channels } }
    let wind (l : WindLevel) (n : Nat) := (after .windSample (high l n)).wmn
    ((after .windSample calm).wmn.channels.validCount = 0 ∧ (after .windSample (windy .cold)).wmn.channels.validCount = 1) ∧
    ((wind .severe 2399).level = .strong ∧ (wind .severe 2399).calm = 0 ∧ (wind .severe 2398).level = .severe ∧
      (wind .severe 2398).calm = 2399) ∧
    (after .windSample { calm with wmn := { calm.wmn with level := .gusty, calm := 2399 } }).wmn.level = .gusty ∧
    ((after .windSample calm).wmn.level ≠ calm.wmn.level ∧ (after .windSample calm).wmn.level ≠ .calm) ∧
    (after .windSample (high .severe 0)).wmn.profileInForce.severe.exitGust ≤
      (after .windSample (high .severe 0)).wmn.profileInForce.severe.enterGust := by decide +kernel

theorem witness_NamedWindEventsAreSamples :
    let failing (n : Nat) := windy { ChannelRec.cold with enable := true, validity := .valid, zeroRun := n }
    let recovering (n : Nat) := windy { ChannelRec.cold with
      enable := true, validity := .implausible, recoveryRun := n, pulses := 1, kc := 256 }
    let expiring := { calm with wmn := { calm.wmn with level := .gusty, calm := 2399 } }
    ((failing 239).wmn.channels.sampled.failing .hub = true ∧ (failing 238).wmn.channels.sampled.failing .hub = false ∧
      ((failing 239).channel .hub).pulses * ((failing 239).channel .hub).kc / 256 = 0 ∧
      ((failing 239).channel .platform).validity = .valid ∧
      80 ≤ ((after .windSample (failing 239)).channel .platform).gust) ∧
    ((recovering 239).wmn.channels.sampled.recovering .hub = true ∧
      (recovering 238).wmn.channels.sampled.recovering .hub = false ∧
      ((recovering 239).channel .hub).pulses * ((recovering 239).channel .hub).kc / 256 = 1) ∧
    calm.wmn.channels.sampled.failing .hub = false ∧ calm.wmn.channels.sampled.recovering .hub = false ∧
    ({ calm.wmn with warmUp := 239 } : Wmn).warmUp = 239 ∧ calm.wmn.warmUp ≠ 239 ∧
    expiring.wmn.observed.calmExpires = true ∧ calm.wmn.observed.calmExpires = false := by decide +kernel

theorem witness_InputFiltersFormGroup :
    calm.pim.inputs.length = 16 ∧ (calm.input 0).raw ≠ true ∧ (calm.input 15).timer = none ∧
    ((setInput 15 { raw := true, filtered := false, timer := some 20 } calm).input 15).timer.isSome = true := by decide

/-! ### Witnesses: the ports -/

theorem witness_PresenceExpiryHoldsRide :
    let q : PortState := { PortState.cold with presence := timerAt 10000 }
    let recorded (c : FaultCode) := setBank .link
      { Bank.cold 16 with
        record := some { code := c, subject := none, angle := 0, time := 0, beforeRestart := false }, counter := 15 } (onPort q)
    (calm.port .p1).presence = none ∧
    (((onPort q).port .p1).presence.isSome = true ∧ ((onPort q).port .p1).lateExpiry = false ∧
      ((onPort q).port .p1).presenceLevel ≠ .none) ∧
    (((onPort { q with lateExpiry := true }).port .p1).lateExpiry = true ∧ ((onPort q).port .p1).fifo.length < 2 ∧
      (onPort q).cfs.device = .service ∧ ((onPort q).port .p1).presenceTime ≠ 0 ∧
      ((onPort q).port .p1).presence = timerAt 10000) ∧
    (((onPort q).bank .link).mask.getLsbD 23 = false ∧ ((onPort q).bank .link).record = none) ∧
    (setBank .link { Bank.cold 16 with mask := 0x800000 } (onPort q)).fbu.link.mask.getLsbD 23 = true ∧
    (FaultCode.crcError.cls = .correctable ∧ FaultCode.presenceLost.cls ≠ .correctable ∧
      (recorded .crcError).fbu.link.record.isSome = true) ∧
    ((after (.presenceTimerExpiry .p1) (recorded .crcError)).bank .link).thresholdReached = true := by decide +kernel

theorem witness_ReceiverDiscardsBadFrames :
    let whole : PortState := { PortState.cold with receiver := .inFrame [2, 1, 0, 0x91] 5 }
    (calm.port .p1).receiver = .hunting ∧ (0xC2 : Byte) ≠ 0xC3 ∧
    ((onPort { PortState.cold with receiver := .inFrame [] 29 }).port .p1).receiver = .inFrame [] 29 ∧
    (1 : Byte).toNat < 2 ∧ 202 < (203 : Byte).toNat ∧ 2 ≤ (2 : Byte).toNat ∧ (202 : Byte).toNat ≤ 202 ∧
    ((onPort whole).port .p1).receiver = .inFrame ([2, 1, 0] ++ [0x91]) 5 ∧
    ([0x91, 0xCD] : List Byte) = halfBytes (crc16 [2, 1, 0]) ∧ ([0x91, 0xCC] : List Byte) ≠ halfBytes (crc16 [2, 1, 0]) := by
  decide +kernel

theorem witness_TransmitterBeginsReplyFirst_notices :
    let sending : PortState := { PortState.cold with transmitter := some (.notice (.queueEmpty 0 0)) }
    let full : PortState := { sending with outbox := List.replicate 16 (.queueEmpty 0 0) }
    (PortState.cold.transmitter = none ∧ PortState.cold.reply = none ∧ PortState.cold.outbox = []) ∧
    (sending.transmitter ≠ none ∧ sending.outbox.length < 16) ∧ 16 ≤ full.outbox.length := by decide

theorem witness_TransmitterBeginsReplyFirst :
    let sending : PortState := { PortState.cold with transmitter := some (.notice (.queueEmpty 0 0)) }
    let f := requestFrame 0 .status
    let waiting : PortState := { sending with reply := some f, fifo := [f, requestFrame 1 .restart] }
    (calm.port .p1).transmitter = none ∧
    ((onPort sending).port .p1).transmitter.isSome = true ∧ ((onPort sending).port .p1).fifo = [] ∧
    ((onPort { sending with reply := some f }).port .p1).reply.isSome = true ∧
    ((onPort { sending with outbox := [.queueEmpty 0 0] }).port .p1).outbox = [.queueEmpty 0 0] ∧
    ((onPort sending).port .p1).reply = none ∧ ((onPort sending).port .p1).outbox = [] ∧
    (((onPort waiting).port .p1).transmitter.isSome = true ∧
      ((onPort waiting).port .p1).fifo = f :: [requestFrame 1 .restart] ∧ ((onPort waiting).port .p1).reply = some f ∧
      f.kind ≠ 0x0E) := by decide +kernel

theorem witness_BusyPortKeepsFrameWaiting :
    let f := requestFrame 0 .status
    let busy : PortState :=
      { PortState.cold with transmitter := some (.reply f), reply := some f, fifo := [f] }
    let lost := heldBy (.link .p1) .noBoard
    2 ≤ ((onPort { busy with fifo := [f, f] }).port .p1).fifo.length ∧
    ((onPort busy).port .p1).fifo.length < 2 ∧ ((onPort busy).port .p1).reply.isSome = true ∧
    ((onPort busy).port .p1).transmitter.isSome = true ∧ (onPort busy).hold (.link .p1) = none ∧
    (onPort busy).cfs.device = .service ∧ ((onPort busy).port .p1).presenceTime ≠ 0 ∧
    ((lost.port .p1).fifo = [] ∧ (lost.port .p1).reply = none ∧ (lost.hold (.link .p1)).isSome = true ∧
      lost.time.resetHeld = false) := by decide

theorem witness_PortRefusesUnknownAndForbidden :
    PortFree .p1 calm ∧ PortFree .p2 calm ∧ unknownKindOk 0 = true ∧ unknownKindOk 0x22 = true ∧
    (0x0A : Byte).toNat ≤ 0x0A ∧ (0x10 ≤ (0x10 : Byte).toNat ∧ (0x18 : Byte).toNat ≤ 0x18) ∧
    ([0] : List Byte).length ≠ 0 ∧ ([] : List Byte).length ≠ 1 ∧ ((0x21 : Byte), 0) ∈ [((0x01 : Byte), 0), (0x21, 0)] ∧
    (∀ m, 1 ≤ m → m ≤ 39 → (List.replicate 198 (0 : Byte)).length ≠ 2 + 5 * m) ∧
    ∀ m, 1 ≤ m → m ≤ 39 → (List.replicate 2 (0 : Byte)).length ≠ 2 + 5 * m :=
  ⟨calm_free _, calm_free _, rfl, rfl, by decide, by decide, by decide, by decide, by decide,
    fun m _ _ => by rw [List.length_replicate]; omega, fun m _ _ => by rw [List.length_replicate]; omega⟩

/-! ### Witnesses: requests that read -/

theorem witness_StatusAnswersAndClearsNoticeLost : PortFree .p1 calm ∧ PortFree .p2 calm := ⟨calm_free _, calm_free _⟩

theorem witness_BlockReadsAnswerAndChangeNothing : PortFree .p1 calm ∧ PortFree .p2 calm := ⟨calm_free _, calm_free _⟩

theorem witness_NumberedReadsAnswerOrRefuse :
    PortFree .p1 calm ∧ (36 : Byte).toNat ≤ calm.cfs.geometry.n ∧ calm.cfs.geometry.n < (37 : Byte).toNat ∧
    BankId.ofNumber (5 : Byte).toNat = some .link := ⟨calm_free _, by decide, by decide, rfl⟩

theorem witness_ConfigGetAnswersEntry :
    PortFree .p2 calm ∧ Table.ofNumber (10 : Byte).toNat = some .link ∧
    Table.link.entry (2 : Byte).toNat = some (.linkPort .p2) ∧ Table.ofNumber (11 : Byte).toNat = none ∧
    Table.link.entry (3 : Byte).toNat = none := ⟨calm_free _, rfl, rfl, rfl, rfl⟩

/-! ### Witnesses: configuration and device state -/

theorem reset_free (p : Port) : PortFree p State.reset := by cases p <;> exact ⟨rfl, rfl, rfl, rfl⟩

theorem witness_ConfigSetWritesEntry :
    PortFree .p1 State.reset ∧ valueListOk [(1, 36)] = true ∧
    ([((1, 0, 1, 48) : Byte × Byte × Byte × Quad), (2, 0, 1, -12288), (3, 0, 1, 600), (4, 0, 1, 100), (5, 0, 1, 4000),
      (6, 0, 1, 20000), (7, 3, 2, 65535), (8, 1, 1, 255), (9, 5, 1, 4095), (10, 2, 2, 4)].all fun x =>
        isAccepted (judgeConfig x.1 x.2.1 [(x.2.2.1, x.2.2.2)] State.reset)) = true ∧
    judgeConfig 3 0 [(1, 601)] State.reset = .refused .badField 4 := ⟨reset_free _, rfl, by decide +kernel, by decide⟩

theorem witness_ConfigSetJudgedInOrder :
    (Table.ofNumber (0 : Byte).toNat = none ∧ Table.geometry.entry (1 : Byte).toNat = none ∧
      (4 : Byte).toNat ≤ 4 ∧ calm.cfs.device = .service) ∧
    (∀ x ∈ [((11 : Byte), (20 : Quad))], 1 ≤ x.1.toNat ∧ x.1.toNat ≤ Table.speeds.fields.length) ∧
    Table.speeds.fields.length < (12 : Byte).toNat ∧
    ([((11 : Byte), (20 : Quad)), (1, 260)].map Prod.fst).Nodup ∧
    (judgeConfig 3 0 [(11, 120), (1, 600)] State.reset |> isAccepted) = true ∧
    judgeConfig 3 0 [(11, 120), (1, 601)] State.reset = .refused .badField 6 ∧
    judgeConfig 3 0 [(1, 260), (7, 19), (8, 20)] State.reset = .refused .badField 6 ∧
    judgeConfig 6 0 [(3, 600)] State.reset = .refused .badField 4 ∧
    judgeConfig 7 1 [(1, 1), (2, 0)] State.reset = .refused .badField 6 :=
  ⟨by decide, List.forall_mem_singleton.mpr (by decide), by decide, by decide, by decide, by decide, by decide, by decide,
    by decide⟩

theorem witness_ConfigWriteEffects :
    ((geometryOf [36, 8192, 1278, 0, 24]).n = State.reset.cfs.geometry.n ∧
      (geometryOf [35, 8192, 1278, 0, 24]).n ≠ State.reset.cfs.geometry.n) ∧
    (({ calm.bsq with slowTarget := some 6 } : Bsq).slowTarget = some 6 ∧ calm.bsq.slowCrossed = false ∧
      (calm.cabin 6).service ≠ .outOfService) ∧
    (((heldBy .balance .slow).hold .balance).isSome = true ∧ calm.hold .balance = none) ∧
    ((State.reset.channel .hub).enable = (nth [0, 256] 1 0 == 1) ∧ (State.reset.channel .hub).enable ≠ (nth [1, 256] 1 0 == 1)) ∧
    (Level.ofCode (natValue [255, 0, 5, 1] 3) = some .park ∧ (State.reset.group .g1).select ≠ BitVec.ofNat 8 255 ∧
      (State.reset.group .g1).select = BitVec.ofNat 8 0) ∧
    (natValue [0, 4] 1 = 0 ∧ (∃ x, (1, x) ∈ [((1 : Nat), (0 : Int))])) ∧
    (natValue [60, 4] 1 ≠ 0 ∧ (∃ x, (1, x) ∈ [((1 : Nat), (60 : Int))]) ∧ calm.cfs.device = .service ∧
      (calm.hold (.link .p2)).isSome = false) ∧
    (Level.ofCode (natValue [60, 4] 2) = some .stop ∧ (∀ x, (1, x) ∉ [((2 : Nat), (4 : Int))]) ∧
      ((heldBy (.link .p2) .noBoard).hold (.link .p2)).isSome = true) := by
  refine ⟨by decide, by decide, by decide, by decide, by decide, ⟨rfl, 0, by simp⟩, ⟨by decide, ⟨60, by simp⟩, rfl, rfl⟩, rfl,
    by simp, by decide⟩

/-- The reset state with a Configuration Store changed. -/
def configured (f : Cfs → Cfs) : State := { State.reset with cfs := f Cfs.cold }

theorem test_commission_names_each_check :
    [configured fun c => { c with geometry := { c.geometry with n := 48 } },
     configured fun c => { c with zones := { c.zones with d := 0 } },
     configured fun c => { c with speeds := { c.speeds with capSlow := 261 } },
     configured fun c => { c with speeds := { c.speeds with aMin := 41 } },
     configured fun c => { c with zones := { c.zones with c := 7500 } },
     configured fun c => { c with balance := { c.balance with clear := 600 } },
     configured fun c => { c with boarding := { c.boarding with perPerson := 150, maxLoad := 149 } },
     configured fun c => { c with geometry := { c.geometry with iRef := 294912 } },
     setCabin 48 { Cabin.cold with manifest := some { id := 1, size := 1, mass := 80, accessible := false, admitted := 0 } }
       State.reset].map commissionFailure
      = [none, some 2, some 3, some 4, some 5, some 6, some 7, some 8, some 9] ∧
    commissionFailure (configured fun c => { c with geometry := { c.geometry with n := 65, p := 65535 } }) = some 1 := by
  decide +kernel

/-- calm with cabin 6 in a phase and with a pass record. -/
def seeded (ph : Phase) (r : Option PlatformLine) : State := setPassRecord 6 r (inPhase ph)

theorem witness_CommissionEntersService :
    (PortFree .p1 calm ∧ calm.cfs.device = .service ∧ PortFree .p1 State.reset ∧ State.reset.cfs.device = .config ∧
      commissionFailure State.reset = none) ∧
    (6 ≤ (seeded .arriving (some .d)).bsq.cabins.length ∧ 6 ≤ (seeded .arriving (some .d)).cru.nodes.length ∧
      ((seeded .arriving (some .d)).cabin 6).phase = .arriving ∧ (seeded .arriving (some .d)).passRecord 6 = some .d ∧
      (seeded .away none).passRecord 6 = none ∧ ((seeded .loading (some .c)).cabin 6).phase = .loading ∧
      (seeded .passing (some .c)).passRecord 6 = some .c) ∧
    ((seedPhase 6 (seeded .arriving (some .c))).cabin 6).phase = .passing ∧
    ((seedPhase 6 (seeded .unloading (some .c))).cabin 6).phase = .closing ∧
    ((seedPhase 6 (seeded .passing none)).cabin 6).phase = .away :=
  ⟨⟨calm_free _, rfl, reset_free _, rfl, by decide +kernel⟩, by decide +kernel, by decide +kernel, by decide +kernel,
    by decide +kernel⟩

/-- The configured wheel referenced, with a load stored and a transaction in flight or not. -/
def commissioning (flight : Option Transaction) : State :=
  setNode 6 { Node.cold with load := 3000 } { State.reset with ptr := calm.ptr, cru := { State.reset.cru with flight := flight } }

/-- R10, R17, R99, R112: a COMMISSION with the wheel referenced seeds, judges the sums, and starts the ring. -/
theorem witness_CommissionEntersService_seeds :
    let s := commissioning none
    let t := after (.commission .p1 0) s
    let g := calm.cfs.geometry
    (commissionFailure s = none ∧ s.ptr.referenced = true ∧ s.cru.flight = none ∧ State.reset.ptr.referenced = false ∧
      (commissioning (asking false none).cru.flight).cru.flight.isSome = true) ∧
    (t.passRecord 6 = some .l ∧ (t.cabin 6).phase = .passing ∧ t.passRecord 1 = none ∧ (t.hold .balance).isSome = true ∧
      t.bsq.sumQ ≠ 0) ∧
    (g.position calm.ptr.angle 8 < calm.cfs.zones.a ∧ calm.cfs.zones.a ≤ g.position calm.ptr.angle 7 ∧
      g.position calm.ptr.angle 7 < calm.cfs.zones.x + calm.cfs.zones.o ∧
      calm.cfs.zones.x + calm.cfs.zones.o ≤ g.position calm.ptr.angle 4) ∧
    State.reset.cfs.device = .config ∧ calm.cfs.device = .service := by decide +kernel

theorem moving_free (r : Rotation) (v : Nat) (p : Port) : PortFree p (moving r v) := by
  cases p <;> exact ⟨rfl, rfl, rfl, rfl⟩

theorem withMoves_free (a b : Option Move) (p : Port) : PortFree p (withMoves a b) := by
  cases p <;> exact ⟨rfl, rfl, rfl, rfl⟩

theorem witness_DecommissionLeavesService :
    PortFree .p1 State.reset ∧ State.reset.cfs.device = .config ∧ PortFree .p1 (moving .running 0) ∧
    PortFree .p1 (withMoves (some (toCabin8 17 .active)) (some (toCabin8 18 .pending))) ∧
    (withMoves (some (toCabin8 17 .active)) (some (toCabin8 18 .pending))).cfs.device = .service ∧
    (withMoves (some (toCabin8 17 .active)) (some (toCabin8 18 .pending))).roc.rotation = .braked :=
  ⟨reset_free _, rfl, moving_free .., withMoves_free .., rfl, rfl⟩

theorem witness_RestartPerformsWarmReset :
    PortFree .p1 calm ∧ calm.roc.rotation = .braked ∧ PortFree .p1 (moving .standing 0) ∧
    (moving .standing 0).roc.rotation ≠ .braked := ⟨calm_free _, rfl, moving_free .., by decide⟩

/-- A braked wheel with the link bank pending at PARK, the second group due to be in MISMATCH at SLOW, and notices waiting
at port 2. -/
def resting : State :=
  let s := setBank .link { (recorded .crcError).fbu.rotation with hold := some .park } calm
  let s := setGroup .g1 { InputGroup.cold with level := .slow, select := 2 } (setInput 9 { raw := true, filtered := false, timer := some 3 } s)
  setPort .p2 { s.port .p2 with outbox := [.queueEmpty 0 0], transmitter := some (.notice (.queueEmpty 0 0)) } s

theorem resting_free : PortFree .p1 resting := ⟨rfl, rfl, rfl, rfl⟩

/-- R25, R120, R143, R150, R171, R178: what the warm reset of that wheel leaves. -/
theorem witness_RestartPerformsWarmReset_ends :
    let t := after (.restart .p1 0) resting
    (resting.roc.rotation = .braked ∧ resting.mvu.trial.status ≠ .measuring ∧ (resting.port .p2).outbox ≠ []) ∧
    (t.roc.rotation = .tripped ∧ t.hold (.fault .link) = some { id := .fault .link, level := .park, time := 0 }) ∧
    (t.group .g1).isMatch = false ∧ (t.hold (.inputs .g1)).isSome = true ∧ (t.hold (.inputs .g0)) = none ∧
    t.hold .wind = some { id := .wind, level := .noBoard, time := 0 } ∧ (t.port .p2).noticeLost = true ∧
    (t.fbu.link.record.map FaultRecord.beforeRestart) = some true ∧ t.wmn.level = .gusty := by decide +kernel

/-! ### Witnesses: rotation requests -/

theorem witness_RunSetsRunEnable :
    PortFree .p1 calm ∧ calm.cfs.device = .service ∧ PortFree .p1 State.reset ∧ State.reset.cfs.device = .config :=
  ⟨calm_free _, rfl, reset_free _, rfl⟩

theorem witness_ClearTripBrakesTrippedWheel :
    let s := { moving .tripped 0 with ptr := { calm.ptr with standstill := true } }
    (PortFree .p1 s ∧ s.roc.rotation = .tripped ∧ s.ptr.standstill = true ∧ s.hlu.effective ≠ .park) ∧
    PortFree .p1 calm ∧ calm.roc.rotation ≠ .tripped :=
  ⟨⟨⟨rfl, rfl, rfl, rfl⟩, rfl, rfl, by decide⟩, calm_free _, by decide⟩

/-- calm with a measuring trial from 260 mm/s whose count so far is given, at standstill or not. -/
def measuring (counts : Int) (still : Bool) : State :=
  { calm with
    mvu := { calm.mvu with trial := { Trial.cold with status := .measuring, v0 := some 260, counts := some counts } }
    ptr := { calm.ptr with standstill := still } }

theorem witness_TrialStartStopsDrive :
    let s := { moving .running 260000 with ptr := { calm.ptr with speed := 100 } }
    (PortFree .p1 s ∧ s.roc.rotation = .running ∧ s.roc.trialStep = false ∧ 100 ≤ s.ptr.speed ∧ s.roc.limits = [] ∧
      s.mvu.slotA = none ∧ s.hlu.effective = .none) ∧
    (PortFree .p1 calm ∧ calm.roc.rotation ≠ .running ∧ calm.mvu.trial.status ≠ .measuring) ∧
    ((measuring 700 false).mvu.trial.counts = some 700 ∧ (measuring 700 false).ptr.standstill = false ∧
      (trialUpdate 0 (measuring 700 true)).roc.aEff = 32 ∧ calm.cfs.speeds.aMin ≤ 37 * 7 / 8) ∧
    (trialUpdate 0 (measuring 2000 true)).mvu.trial.outcome = some .insufficient :=
  ⟨⟨⟨rfl, rfl, rfl, rfl⟩, rfl, rfl, by decide, rfl, rfl, rfl⟩, ⟨calm_free _, by decide, by decide⟩, by decide +kernel,
    by decide +kernel⟩

/-- calm with a measuring trial, both move slots taken and one hold entry. -/
def lifted (v : Level) : State :=
  { heldBy (.controlRoom 1) v with
    mvu := { (measuring 0 false).mvu with slotA := some (toCabin8 17 .arrived), slotB := some (toCabin8 18 .pending) }
    roc := { (moving .running 1000).roc with limits := [doorEntry 0, { doorEntry 0 with origin := .move }] } }

/-- R25, R51, R58: the moves, the trial and the notices of a change to PARK, and of one to STOP. -/
theorem witness_ClearTripBrakesTrippedWheel_park :
    let t := handToWheel .none (lifted .park)
    let u := handToWheel .none (lifted .stop)
    ((lifted .park).hlu.effective = .park ∧ (lifted .stop).hlu.effective = .stop ∧ (lifted .slow).hlu.effective = .slow ∧
      (lifted .park).roc.rotation ≠ .tripped) ∧
    (t.roc.rotation = .tripped ∧ t.mvu.slotA.map Move.status = some .aborted ∧ t.mvu.slotB.map Move.status = some .cancelled ∧
      t.mvu.trial.status = .aborted ∧ t.roc.limits = [doorEntry 0]) ∧
    ((t.port .p1).transmitter.isSome = true ∧ (t.port .p1).outbox.length = 3) ∧
    (u.roc.rotation = .running ∧ u.mvu.slotA.map Move.status = some .arrived ∧ u.mvu.trial.status = .aborted) ∧
    (handToWheel .none { moving .tripped 0 with hlu := (lifted .park).hlu }).port .p1 = calm.port .p1 := by decide +kernel

/-! ### Witnesses: station holds and queue -/

theorem heldBy_free (r : Nat) (v : Level) (p : Port) : PortFree p (heldBy (.controlRoom r) v) := by
  cases p <;> exact ⟨rfl, rfl, rfl, rfl⟩

/-- calm with four entries of the platform desk. -/
def fourHolds : State :=
  { calm with hlu :=
      { entries := [1, 2, 3, 4].map fun r => { id := .platformDesk r, level := .slow, time := 0 }
        effective := .slow
        other := .slow } }

theorem witness_HoldSetPlacesStationEntry :
    (PortFree .p2 fourHolds ∧ fourHolds.hold (.platformDesk 15) = none ∧ 4 ≤ fourHolds.stationCount .p2 ∧
      (fourHolds.hold (.platformDesk 4)).isSome = true) ∧
    (PortFree .p1 calm ∧ calm.stationCount .p1 < 4 ∧ Level.ofCode (5 : Byte).toNat = some .park ∧
      calm.hlu.effective ≠ .park) ∧
    ((measuring 0 false).mvu.trial.status = .measuring ∧ (measuring 0 false).hlu.effective ≠ .stop ∧
      (after (.holdSet .p2 0 1 4) (measuring 0 false)).mvu.trial.abortCause = some .level) ∧
    (after (.holdSet .p2 0 1 3) calm).hold .boarding = some { id := .boarding, level := .stop, time := 0 } ∧
    (after (.holdSet .p2 0 1 3) (setNode 36 { Node.cold with load := 31 } calm)).hold .boarding = none :=
  ⟨⟨⟨rfl, rfl, rfl, rfl⟩, by decide, by decide, by decide⟩, ⟨calm_free _, by decide, rfl, by decide⟩, by decide +kernel,
    by decide +kernel, by decide +kernel⟩

/-- R137, R139, R140: an insertion, a replacement in place and a removal; LEVEL_CHANGED exactly where the level changes. -/
theorem witness_HoldSetPlacesStationEntry_notices :
    let s := heldBy (.controlRoom 15) .stop
    let busy (t : State) := (t.port .p1).transmitter.isSome
    (s.hold (.controlRoom 1) = none ∧ (s.hold (.controlRoom 15)).isSome = true ∧
      s.hlu.entries = [] ++ { id := .controlRoom 15, level := .stop, time := 0 } :: []) ∧
    [holdInsert (.controlRoom 1) .slow s, holdInsert (.controlRoom 1) .park s, holdInsert (.controlRoom 15) .stop s,
      holdRemove (.controlRoom 15) s, holdRemove (.controlRoom 1) s].map busy = [false, true, false, true, false] := by
  decide +kernel

theorem witness_HoldReleaseRemovesOwnEntry :
    PortFree .p1 (heldBy (.controlRoom 15) .stop) ∧
    ((heldBy (.controlRoom 15) .stop).hold (stationHold .p1 (15 : Byte).toNat)).isSome = true ∧
    PortFree .p1 calm ∧ calm.hold (stationHold .p1 (1 : Byte).toNat) = none :=
  ⟨heldBy_free .., by decide, calm_free _, rfl⟩

theorem queued_free (q : List Group) (p : Port) : PortFree p (queued q) := by cases p <;> exact ⟨rfl, rfl, rfl, rfl⟩

theorem witness_GroupAddJoinsTail :
    (PortFree .p2 (queued [party 1 false]) ∧ (1 : Half).toNat ∈ (queued [party 1 false]).heldIds) ∧
    (PortFree .p2 (queued (List.replicate 32 (party 1 false))) ∧
      32 ≤ (queued (List.replicate 32 (party 1 false))).bsq.queue.length ∧
      (2 : Half).toNat ∉ (queued (List.replicate 32 (party 1 false))).heldIds ∧
      (2 : Half).toNat ∉ (queued (List.replicate 31 (party 1 false))).heldIds ∧
      (queued (List.replicate 31 (party 1 false))).bsq.queue.length < 32) ∧
    (4000 < (4001 : Half).toNat ∧ (4000 : Half).toNat ≤ 4000 ∧ 1 < (2 : Byte).toNat ∧
      calm.cfs.boarding.capacity < (26 : Byte).toNat ∧ (25 : Byte).toNat ≤ calm.cfs.boarding.capacity ∧
      calm.cfs.boarding.maxLoad < max (2401 : Half).toNat (25 * 20)) ∧
    1 ≤ calm.cfs.boarding.capacity ∧ max 20 (1 * 20) ≤ calm.cfs.boarding.maxLoad :=
  ⟨⟨queued_free .., by decide +kernel⟩,
    ⟨queued_free .., by decide, by decide +kernel, by decide +kernel, by decide⟩, by decide, by decide, by decide⟩

theorem witness_GroupWithdrawRemovesRecord :
    PortFree .p2 (queued [party 1 false, party 2 false]) ∧
    (queued [party 1 false, party 2 false]).bsq.queue = [party 1 false] ++ party 2 false :: [] ∧
    (party 2 false).id = (2 : Half).toNat ∧ (2 : Half).toNat ∉ [party 1 false].map Group.id ∧
    (3 : Half).toNat ∉ [party 1 false, party 2 false].map Group.id :=
  ⟨queued_free .., rfl, rfl, by decide, by decide⟩

/-! ### Witnesses: doors, factors, services -/

/-- calm with cabin 6 closing and its DOOR entry in the list. -/
def closing : State :=
  { inPhase .closing with roc := { calm.roc with limits :=
      [{ origin := .door 6, line := 49152, limitSpeed := 0, margin := true, remaining := 392, overrunReported := false }] } }

theorem witness_DoorRetryQueuesClose :
    (PortFree .p2 closing ∧ (closing.cabin 6).phase = .closing ∧ closing.hasDoor 6 = true) ∧
    PortFree .p2 calm ∧ (calm.cabin 36).phase = .away ∧ (36 : Byte).toNat ≤ calm.cfs.geometry.n ∧
    calm.cfs.geometry.n < (37 : Byte).toNat :=
  ⟨⟨⟨rfl, rfl, rfl, rfl⟩, rfl, rfl⟩, calm_free _, rfl, by decide, by decide⟩

theorem witness_FactorClearJudgesEntry :
    PortFree .p2 calm ∧ GroupId.ofNumber (1 : Byte).toNat = some .g1 ∧ 1 < (2 : Byte).toNat :=
  ⟨calm_free _, rfl, by decide⟩

theorem witness_CabinServiceSetsState :
    PortFree .p1 calm ∧ 1 ≤ (36 : Byte).toNat ∧ (36 : Byte).toNat ≤ calm.cfs.geometry.n ∧
    (36 : Byte).toNat ≤ calm.bsq.cabins.length := ⟨calm_free _, by decide, by decide, by decide⟩

/-! ### Witnesses: moves -/

theorem witness_MoveSubmitFillsSlot :
    (PortFree .p2 calm ∧ calm.cfs.device = .service ∧ calm.ptr.referenced = true ∧ calm.hlu.effective ≠ .park ∧
      calm.roc.trialStep = false ∧ calm.occupiedA = false) ∧
    (let s := withMoves (some (toCabin8 17 .arrived)) none;
      PortFree .p1 s ∧ s.occupiedA = true ∧ s.pendingB = false) ∧
    (let s := withMoves (some (toCabin8 17 .active)) (some (toCabin8 18 .pending));
      PortFree .p1 s ∧ s.occupiedA = true ∧ s.pendingB = true) ∧
    PortFree .p1 State.reset ∧ State.reset.cfs.device = .config :=
  ⟨⟨calm_free _, rfl, rfl, by decide, rfl, rfl⟩, ⟨withMoves_free .., rfl, rfl⟩, ⟨withMoves_free .., rfl, rfl⟩, reset_free _,
    rfl⟩

/-- calm with an ACTIVE move to cabin 8 whose MOVE entry has a remaining travel, at standstill. -/
def arrivingAt (kind : MoveKind) (remaining : Int) : State :=
  { withMoves (some { toCabin8 17 .active with kind := kind }) none with
    roc := { calm.roc with limits :=
      [{ origin := .move, line := 57344, limitSpeed := 0, margin := false, remaining := remaining, overrunReported := false }] }
    ptr := { calm.ptr with standstill := true } }

theorem witness_MoveCancelAndResumeEndMove :
    (let s := withMoves (some (toCabin8 17 .arrived)) (some (toCabin8 18 .pending));
      PortFree .p1 s ∧ s.mvu.slotA = some (toCabin8 17 .arrived) ∧ s.mvu.slotB = some (toCabin8 18 .pending)) ∧
    (let s := withMoves (some (toCabin8 17 .done)) (some (toCabin8 18 .cancelled));
      PortFree .p1 s ∧ s.mvu.slotA = some (toCabin8 17 .done) ∧ s.mvu.slotB = some (toCabin8 18 .cancelled)) ∧
    (PortFree .p1 calm ∧ calm.mvu.slotA = none ∧ calm.mvu.slotB = none ∧ calm.time.resetHeld = false ∧
      (withMoves (some (toCabin8 17 .done)) none).limit .move = none) ∧
    ([64, -64, -65].map fun r => (moveUpdate (arrivingAt (.stopCabin 8) r)).mvu.slotA.map Move.status)
      = [some .arrived, some .arrived, some .aborted] ∧
    ([64, 65].map fun r => (moveUpdate (arrivingAt (.advance 2) r)).mvu.slotA.map Move.status) = [some .done, some .active] ∧
    ((moveUpdate (arrivingAt (.advance 2) 65)).mvu.slotA.bind Move.arrivalError).isSome = true :=
  ⟨⟨withMoves_free .., rfl, rfl⟩, ⟨withMoves_free .., rfl, rfl⟩, ⟨calm_free _, rfl, rfl, rfl, rfl⟩, by decide +kernel, by decide +kernel,
    by decide +kernel⟩

/-! ### Witnesses: wind profiles and fault banks -/

theorem witness_ProfileWriteReplacesOther :
    PortFree .p1 calm ∧ Profile.cold.values.length = 17 ∧ ProfileId.ofNumber (1 : Byte).toNat = some .p1 ∧
    calm.wmn.operative ≠ .p1 ∧ profileRangeFailure 0 Profile.cold.values = none ∧
    profileRelationFailure Profile.cold.values = none ∧ profileRangeFailure 0 (List.replicate 17 0) = some 0 ∧
    profileRelationFailure ({ Profile.cold with breeze := Profile.cold.gusty, gusty := Profile.cold.breeze } : Profile).values
      = some 0 := ⟨calm_free _, rfl, rfl, by decide, by decide, by decide, by decide, by decide⟩

theorem witness_ProfileSelectTakesForce :
    PortFree .p1 calm ∧ calm.wmn.operative = .p0 ∧ ProfileId.ofNumber (0 : Byte).toNat = some .p0 ∧
    ProfileId.ofNumber (1 : Byte).toNat = some .p1 ∧ calm.wmn.operative ≠ .p1 := ⟨calm_free _, rfl, rfl, rfl, by decide⟩

/-- calm with the link bank pending. -/
def pendingLink : State := setBank .link { Bank.cold 16 with hold := some .park } calm

theorem pendingLink_free (p : Port) : PortFree p pendingLink := by cases p <;> exact ⟨rfl, rfl, rfl, rfl⟩

theorem witness_FaultAckReleasesBank :
    PortFree .p1 pendingLink ∧ BankId.ofNumber (5 : Byte).toNat = some .link ∧
    (pendingLink.bank .link).hold.isSome = true ∧ PortFree .p1 calm ∧ (calm.bank .link).hold = none :=
  ⟨pendingLink_free _, rfl, rfl, calm_free _, rfl⟩

theorem witness_FaultClearEmptiesRecord :
    PortFree .p1 pendingLink ∧ BankId.ofNumber (5 : Byte).toNat = some .link ∧
    (pendingLink.bank .link).hold.isSome = true ∧ PortFree .p1 calm ∧ (calm.bank .link).hold = none :=
  ⟨pendingLink_free _, rfl, rfl, calm_free _, rfl⟩

theorem witness_CounterClearZeroesCounter : PortFree .p1 calm ∧ BankId.ofNumber (1 : Byte).toNat = some .rotation :=
  ⟨calm_free _, rfl⟩

theorem witness_FaultMaskSetsCodeBit :
    PortFree .p1 calm ∧ FaultCode.ofNumber 0 = none ∧
    ((FaultCode.ofNumber (FaultCode.brakeSetTimeout.number)) = some .brakeSetTimeout ∧
      FaultCode.brakeSetTimeout.bank = .rotation) ∧
    FaultCode.crcError.bank = .link ∧ FaultCode.crcError.scope = .signal := ⟨calm_free _, rfl, ⟨rfl, rfl⟩, rfl, rfl⟩

end Sys2Proof.Tests
end

/-! Proofs: what a request comes to at a free port (R174 to R176), and the boarding sequence's DOOR_RETRY (R92). -/

namespace Sys2Proof.Machine

/-! ### The state in which a free port handles a request -/

section Taken

variable (p : Port) (f : Frame) (s : State)

/-- What a frame does before its request is answered stays inside the port. -/
theorem taken_eq_setPort : ∃ q, taken p f s = setPort p q s := by
  unfold taken heard
  split
  · exact ⟨_, setPort_setPort ..⟩
  · exact ⟨_, rfl⟩

@[simp] theorem taken_cfs : (taken p f s).cfs = s.cfs := by
  obtain ⟨q, hq⟩ := taken_eq_setPort p f s
  rw [hq, setPort_cfs]

@[simp] theorem taken_cabin (k : Nat) : (taken p f s).cabin k = s.cabin k := by
  obtain ⟨q, hq⟩ := taken_eq_setPort p f s
  rw [hq, setPort_cabin]

@[simp] theorem taken_node (k : Nat) : (taken p f s).node k = s.node k := by
  obtain ⟨q, hq⟩ := taken_eq_setPort p f s
  rw [hq, setPort_node]

@[simp] theorem taken_hasDoor (k : Nat) : (taken p f s).hasDoor k = s.hasDoor k := by
  obtain ⟨q, hq⟩ := taken_eq_setPort p f s
  rw [hq, State.hasDoor, setPort_limit, State.hasDoor]

end Taken

/-! ### A request's outcome from its judgement -/

section Outcome

variable {p : Port} {tag : Byte} {r : Request} {s : State}

/-- Without a reset, a request is the arrival of its frame. -/
theorem requestArrives_running (h : s.time.resetHeld = false) :
    requestArrives p tag r s = .next (frameArrives p (requestFrame tag r) s) := by
  simp [requestArrives, unlessReset, h]

theorem requestArrives_accepted {t : State} {payload : List Byte} (h : PortFree p s)
    (ha : judgeFrame p (requestFrame tag r) (taken p (requestFrame tag r) s) = .accepted payload t) :
    requestArrives p tag r s = accepts p (requestFrame tag r) payload t := by
  rw [requestArrives_running h.running, request_accepted h ha, accepts]

theorem requestArrives_refused {reason : Reason} {n : Nat} (h : PortFree p s)
    (ha : judgeFrame p (requestFrame tag r) (taken p (requestFrame tag r) s) = .refused reason n) :
    requestArrives p tag r s = refuses p (requestFrame tag r) reason n s := by
  rw [requestArrives_running h.running, request_refused h ha, refuses]

end Outcome

/-! ### DOOR_RETRY (R92) -/

theorem Geometry.hasCabin_iff {g : Geometry} {k : Nat} : g.hasCabin k = true ↔ 1 ≤ k ∧ k ≤ g.n := decide_eq_true_iff

theorem exec_doorRetry (p : Port) (tag cabin : Byte) (s : State) :
    exec (.doorRetry p tag cabin) s = requestArrives p tag (.doorRetry cabin) s := rfl

/-- Both ports may send DOOR_RETRY, and its payload reads back (R175). -/
theorem judgeFrame_doorRetry (p : Port) (tag cabin : Byte) (s : State) :
    judgeFrame p (requestFrame tag (.doorRetry cabin)) s = answerDoorRetry cabin.toNat s := by
  cases p <;> rfl

section Answers

variable {k : Nat} {s : State}

theorem answerDoorRetry_badField (h : k = 0 ∨ s.cfs.geometry.n < k) : answerDoorRetry k s = .refused .badField 1 := by
  have hk : ¬s.cfs.geometry.hasCabin k = true := by
    rw [Geometry.hasCabin_iff]
    omega
  rw [answerDoorRetry, if_pos hk, badField]

theorem answerDoorRetry_wrongState (hk : 1 ≤ k ∧ k ≤ s.cfs.geometry.n)
    (h : ((s.cabin k).phase ≠ .closing ∧ (s.cabin k).phase ≠ .doorHold) ∨ s.hasDoor k = false) :
    answerDoorRetry k s = .refused .wrongState 0 := by
  have hd : ¬(((s.cabin k).phase = .closing ∨ (s.cabin k).phase = .doorHold) ∧ s.hasDoor k = true) := by
    rintro ⟨hph, hdoor⟩
    rcases h with ⟨hclosing, hhold⟩ | hnone
    · exact hph.elim hclosing hhold
    · simp [hnone] at hdoor
  rw [answerDoorRetry, if_neg (not_not_intro (Geometry.hasCabin_iff.mpr hk)), if_neg hd, wrongState]

theorem answerDoorRetry_accepted (hk : 1 ≤ k ∧ k ≤ s.cfs.geometry.n)
    (hph : (s.cabin k).phase = .closing ∨ (s.cabin k).phase = .doorHold) (hdoor : s.hasDoor k = true) :
    answerDoorRetry k s =
      .accepted (be1 (s.cabin k).phase.code ++ be1 (s.node k).door.code ++ be1 (s.node k).state.code)
        (queueCommand k .close s) := by
  rw [answerDoorRetry, if_neg (not_not_intro (Geometry.hasCabin_iff.mpr hk)), if_pos ⟨hph, hdoor⟩]

end Answers

/-- Settles O50, from the three outcomes of answerDoorRetry: taking the frame leaves the cabin, its node, the limit list and
the geometry as they were, so the answer's conditions may be read in s. -/
theorem doorRetryQueuesClose : Obligations.DoorRetryQueuesClose := by
  intro p tag cabin s hfree
  dsimp only
  rw [exec_doorRetry]
  refine ⟨fun hout => requestArrives_refused hfree ?badField, fun hlo hhi =>
    ⟨fun hidle => requestArrives_refused hfree ?wrongState, fun hph hdoor => ?accepted⟩⟩
  case badField =>
    rw [judgeFrame_doorRetry]
    exact answerDoorRetry_badField (by rwa [taken_cfs])
  case wrongState =>
    rw [judgeFrame_doorRetry]
    exact answerDoorRetry_wrongState (by rw [taken_cfs]; exact ⟨hlo, hhi⟩) (by rwa [taken_cabin, taken_hasDoor])
  case accepted =>
    rw [requestArrives_accepted hfree ((judgeFrame_doorRetry ..).trans (answerDoorRetry_accepted
      (by rw [taken_cfs]; exact ⟨hlo, hhi⟩) (by rwa [taken_cabin]) (by rwa [taken_hasDoor])))]
    rw [queueCommand, taken_cabin, taken_node]

end Sys2Proof.Machine

/-! Proofs: the configuration store read by CONFIG_GET (R181). -/

namespace Sys2Proof.Machine

/-! ### A configuration entry's values while a frame is taken -/

section Values

variable {p : Port} {q : PortState} {f : Frame} {s : State}

/-- Of a port, an entry reads the presence time and the presence level only. -/
theorem setPort_values (ht : q.presenceTime = (s.port p).presenceTime) (hl : q.presenceLevel = (s.port p).presenceLevel)
    (e : Entry) : (setPort p q s).values e = s.values e := by
  cases e with
  | linkPort x =>
    by_cases hx : x = p
    · subst hx
      simp only [State.values, setPort_port_self, ht, hl]
    · simp only [State.values, setPort_port_other s hx]
  | windChannel c => simp only [State.values, setPort_channel]
  | inputGroup g => simp only [State.values, setPort_group]
  | faultBank b => simp only [State.values, setPort_bank]
  | geometry | zones | speeds | ring | boarding | balance => simp only [State.values, setPort_cfs]

/-- The restart of a presence timer is no change of an entry (R152). -/
theorem heard_values (e : Entry) : (heard p s).values e = s.values e := by
  unfold heard
  split
  · exact setPort_values (by rfl) (by rfl) e
  · rfl

@[simp] theorem taken_values (e : Entry) : (taken p f s).values e = s.values e :=
  (setPort_values (by rfl) (by rfl) e).trans (heard_values e)

end Values

/-! ### CONFIG_GET (R181) -/

theorem exec_configGet (p : Port) (tag table index : Byte) (s : State) :
    exec (.configGet p tag table index) s = requestArrives p tag (.configGet table index) s := rfl

/-- Both ports may send CONFIG_GET, and its payload reads back (R175). -/
theorem judgeFrame_configGet (p : Port) (tag table index : Byte) (s : State) :
    judgeFrame p (requestFrame tag (.configGet table index)) s = answerConfigGet table.toNat index.toNat s := by
  cases p <;> rfl

section Answers

variable {table index : Nat} {t : Table} {s : State}

theorem answerConfigGet_unknownTable (ht : Table.ofNumber table = none) :
    answerConfigGet table index s = .refused .badField 1 := by
  simp only [answerConfigGet, ht, badField]

theorem answerConfigGet_unknownIndex (ht : Table.ofNumber table = some t) (he : t.entry index = none) :
    answerConfigGet table index s = .refused .badField 2 := by
  simp only [answerConfigGet, ht, he, badField]

theorem answerConfigGet_accepted {e : Entry} (ht : Table.ofNumber table = some t) (he : t.entry index = some e) :
    answerConfigGet table index s = .accepted (configPayload t e s) s := by
  simp only [answerConfigGet, ht, he]

end Answers

/-- The payload of a CONFIG_GET reply is the same before and after its frame is taken. -/
theorem configPayload_taken (t : Table) (e : Entry) (p : Port) (f : Frame) (s : State) :
    configPayload t e (taken p f s) = configPayload t e s := by
  rw [configPayload, configPayload, taken_values, taken_cfs]

/-- Settles O36, from the three outcomes of answerConfigGet: a table and index choose the outcome in any state, and taking
the frame leaves the entry's values and the geometry as they were, so the payload may be read in s. -/
theorem configGetAnswersEntry : Obligations.ConfigGetAnswersEntry := by
  intro p tag table index s hfree
  dsimp only
  rw [exec_configGet]
  refine ⟨fun t e ht he => ?accepted, fun ht => requestArrives_refused hfree ?unknownTable,
    fun t ht he => requestArrives_refused hfree ?unknownIndex⟩
  case accepted =>
    rw [requestArrives_accepted hfree ((judgeFrame_configGet ..).trans (answerConfigGet_accepted ht he)),
      configPayload_taken, configPayload, Geometry.cpr]
  case unknownTable => rw [judgeFrame_configGet, answerConfigGet_unknownTable ht]
  case unknownIndex => rw [judgeFrame_configGet, answerConfigGet_unknownIndex ht he]

end Sys2Proof.Machine

/-! Proofs: the reset state and the bound of the hold set (R136, R143). -/

namespace Sys2Proof.Machine

/-! ### What core Lean does not say of choices and searches -/

/-- Equivalent conditions choose equal values. -/
theorem if_iff_congr {α : Type} {p q : Prop} [Decidable p] [Decidable q] {a b c d : α} (h : p ↔ q) (hac : a = c) (hbd : b = d) :
    (if p then a else b) = if q then c else d :=
  ite_congr (propext h) (fun _ => hac) fun _ => hbd

/-- Tests that agree on a list find the same in it. -/
theorem find_of_agree {α : Type} {f g : α → Bool} {l : List α} (h : ∀ a ∈ l, f a = g a) : l.find? f = l.find? g := by
  induction l with
  | nil => rfl
  | cons a l ih =>
    rw [List.find?_cons, List.find?_cons, h a List.mem_cons_self, ih fun b hb => h b (List.mem_cons_of_mem _ hb)]

/-! ### The step and the reset state -/

/-- Settles O1: the step is the dispatch on the queue's front. -/
theorem stepRunsFrontCommand : Obligations.StepRunsFrontCommand := fun _ _ _ => rfl

theorem reset_holdsSound : HoldsSound State.reset.hlu where
  legal := by simp [State.reset, HoldId.legal]
  distinct := by decide
  restrictive := by decide
  stations p := by cases p <;> decide
  effective := by decide
  other := by decide

theorem reset_wheelSound : WheelSound State.reset where
  park := by decide
  config := by decide
  still := by decide
  reference := by decide
  trial := by decide
  cruise := by decide
  decel := by decide

theorem reset_blocksSound : BlocksSound State.reset where
  holds := reset_holdsSound
  wheel := reset_wheelSound
  points := ⟨by decide, by decide⟩
  moves := ⟨by decide, by decide⟩
  groups := ⟨by decide, by decide⟩

theorem reset_portsSound : PortsSound State.reset := fun p => by
  cases p <;> exact ⟨by decide, by decide, by decide, by decide⟩

theorem reset_entriesAgree : EntriesAgree State.reset where
  wind := by decide
  inputs g := by cases g <;> decide
  banks b := by cases b <;> decide
  masks b i h := by
    have hm : (State.reset.bank b).mask = 0 := by cases b <;> rfl
    simp [hm] at h

/-- Settles O6: each invariant, read off the reset state. -/
theorem resetStateIsSound : Obligations.ResetStateIsSound :=
  ⟨reset_blocksSound, reset_portsSound, reset_entriesAgree⟩

/-! ### The size of a sound hold set -/

/-- The identities that belong to no station (R137). -/
def ownIds : List HoldId :=
  [.wind, .balance, .boarding, .inputs .g0, .inputs .g1, .fault .rotation, .fault .ring, .fault .wind,
   .fault .platform, .fault .link, .link .p1, .link .p2]

theorem ofStation_of_legal {p : Port} {r : Nat} (h : 1 ≤ r ∧ r ≤ 15) : (stationHold p r).ofStation p = true :=
  List.any_eq_true.mpr ⟨r, List.mem_range.mpr (by omega), beq_self_eq_true _⟩

/-- A legal identity is one of a station or one of the twelve others. -/
theorem station_or_own {id : HoldId} (h : id.legal) :
    id.ofStation .p1 = true ∨ id.ofStation .p2 = true ∨ id ∈ ownIds := by
  cases id with
  | controlRoom r => exact .inl (ofStation_of_legal (p := .p1) h)
  | platformDesk r => exact .inr (.inl (ofStation_of_legal (p := .p2) h))
  | wind | balance | boarding => exact .inr (.inr (by decide))
  | inputs g => exact .inr (.inr (by cases g <;> decide))
  | fault b => exact .inr (.inr (by cases b <;> decide))
  | link p => exact .inr (.inr (by cases p <;> decide))

/-- A list covered by three filters is no longer than the three together. -/
theorem length_le_filters {α : Type} (f g h : α → Bool) (l : List α)
    (hc : ∀ a ∈ l, f a = true ∨ g a = true ∨ h a = true) :
    l.length ≤ (l.filter f).length + (l.filter g).length + (l.filter h).length := by
  induction l with
  | nil => simp
  | cons a l ih =>
    have hl := ih fun x hx => hc x (List.mem_cons_of_mem _ hx)
    simp only [List.filter_cons, List.length_cons]
    rcases hc a List.mem_cons_self with ha | ha | ha <;> simp only [ha, if_true] <;> split <;> split <;>
      simp only [List.length_cons] <;> omega

/-- Settles O7: the entries of each station are at most four, and all others have one of twelve identities. -/
theorem soundHoldSetHoldsTwenty : Obligations.SoundHoldSetHoldsTwenty := by
  intro h hs
  have hown : (h.entries.filter fun e => decide (e.id ∈ ownIds)).length ≤ ownIds.length := by
    rw [← List.length_map (f := HoldEntry.id)]
    refine (hs.distinct.sublist (List.Sublist.map _ List.filter_sublist)).length_le_of_subset ?_
    intro id hid
    obtain ⟨e, he, rfl⟩ := List.mem_map.mp hid
    exact of_decide_eq_true (List.mem_filter.mp he).2
  have hall := length_le_filters (fun e => e.id.ofStation .p1) (fun e => e.id.ofStation .p2)
    (fun e => decide (e.id ∈ ownIds)) h.entries
    fun e he => by simpa using station_or_own (hs.legal e he)
  have h1 := hs.stations .p1
  have h2 := hs.stations .p2
  have : ownIds.length = 12 := rfl
  omega

end Sys2Proof.Machine

/-! Proofs: the events inside the blocks as chains of four kinds of links, so that a fact about all of them is a fact about
each kind (R98, R115, R156). -/

namespace Sys2Proof.Machine

/-! ### Chains -/

/-- An update of the Move Unit, the Cabin Ring Unit, the Boarding Sequencer, the ports and the limit points alone. -/
def Plain (s t : State) : Prop :=
  ∃ m c b l v, t = { s with mvu := m, cru := c, bsq := b, lkp := l, roc := { s.roc with limits := v } }

/-- What events inside the blocks are made of: plain updates, reports of the codes of C, and the Boarding Sequencer's own
changes of the hold set. -/
inductive Chain (C : FaultCode → Prop) : State → State → Prop where
  | plain {s t : State} : Plain s t → Chain C s t
  | report {c : FaultCode} (k : Option Nat) (s : State) : C c → Chain C s (report c k s)
  | balanceIn (s : State) : Chain C s (holdInsert .balance .slow s)
  | balanceOut (s : State) : Chain C s (holdRemove .balance s)
  | bringHome (s : State) : Chain C s (bringHomeJudge s)
  | trans {s t u : State} : Chain C s t → Chain C t u → Chain C s u

theorem Plain.refl (s : State) : Plain s s := ⟨s.mvu, s.cru, s.bsq, s.lkp, s.roc.limits, rfl⟩

theorem Plain.trans {s t u : State} (h : Plain s t) (k : Plain t u) : Plain s u := by
  obtain ⟨_, _, _, _, _, rfl⟩ := h
  obtain ⟨m, c, b, l, v, rfl⟩ := k
  exact ⟨m, c, b, l, v, rfl⟩

theorem Plain.ite {s t u : State} {c : Prop} [Decidable c] (h : Plain s t) (k : Plain s u) :
    Plain s (if c then t else u) := by
  split
  · exact h
  · exact k

theorem Chain.refl {C : FaultCode → Prop} (s : State) : Chain C s s := .plain (.refl s)

theorem Chain.ite {C : FaultCode → Prop} {s t u : State} {c : Prop} [Decidable c] (h : Chain C s t) (k : Chain C s u) :
    Chain C s (if c then t else u) := by
  split
  · exact h
  · exact k

theorem Chain.foldl {C : FaultCode → Prop} {α : Type} (f : State → α → State) (hf : ∀ s a, Chain C s (f s a)) (l : List α) :
    ∀ s, Chain C s (l.foldl f s) := by
  induction l with
  | nil => exact .refl
  | cons a l ih => exact fun s => (hf s a).trans (ih _)

/-- More codes allow more chains. -/
theorem Chain.mono {C D : FaultCode → Prop} (h : ∀ c, C c → D c) {s t : State} (k : Chain C s t) : Chain D s t := by
  induction k with
  | plain h => exact .plain h
  | report k s hc => exact .report k s (h _ hc)
  | balanceIn s => exact .balanceIn s
  | balanceOut s => exact .balanceOut s
  | bringHome s => exact .bringHome s
  | trans _ _ h k => exact h.trans k

/-! ### Plain updates -/

theorem setCabin_plain (k : Nat) (c : Cabin) (s : State) : Plain s (setCabin k c s) := ⟨_, _, _, _, s.roc.limits, rfl⟩

theorem setNode_plain (k : Nat) (n : Node) (s : State) : Plain s (setNode k n s) := ⟨_, _, _, _, s.roc.limits, rfl⟩

theorem notify_plain (n : Notice) (s : State) : Plain s (notify n s) := ⟨_, _, _, _, s.roc.limits, rfl⟩

theorem setPort_plain (p : Port) (q : PortState) (s : State) : Plain s (setPort p q s) := ⟨_, _, _, _, s.roc.limits, rfl⟩

theorem withBsq_plain (b : Bsq) (s : State) : Plain s { s with bsq := b } := ⟨_, _, _, _, s.roc.limits, rfl⟩

theorem withMvu_plain (m : Mvu) (s : State) : Plain s { s with mvu := m } := ⟨_, _, _, _, s.roc.limits, rfl⟩

theorem withCru_plain (c : Cru) (s : State) : Plain s { s with cru := c } := ⟨_, _, _, _, s.roc.limits, rfl⟩

theorem limitInsert_plain (o : LimitOrigin) (line v : Nat) (m : Bool) (r : Int) (s : State) :
    Plain s (limitInsert o line v m r s) := ⟨_, _, _, _, _, rfl⟩

theorem limitRemove_plain (o : LimitOrigin) (s : State) : Plain s (limitRemove o s) := ⟨_, _, _, _, _, rfl⟩

theorem markOverrun_plain (o : LimitOrigin) (s : State) : Plain s (markOverrun o s) := ⟨_, _, _, _, _, rfl⟩

theorem setSlot_plain (sl : Slot) (m : Option Move) (s : State) : Plain s (setSlot sl m s) :=
  ⟨_, _, _, _, s.roc.limits, rfl⟩

theorem moveChanged_plain (sl : Slot) (m : Option Move) (s : State) : Plain s (moveChanged sl m s) := by
  cases m with
  | none => exact (setSlot_plain sl none s).trans (notify_plain _ _)
  | some m => exact ((setSlot_plain sl _ s).trans (notify_plain _ _)).trans (withBsq_plain _ _)

theorem abortTrial_plain (c : TrialAbort) (s : State) : Plain s (abortTrial c s) := by
  unfold abortTrial
  exact .ite ((withMvu_plain _ s).trans (notify_plain _ _)) (.refl s)

theorem slowInsert_plain (k : Nat) (s : State) : Plain s (slowInsert k s) := limitInsert_plain ..

theorem slowJudge_plain (s : State) : Plain s (slowJudge s) := by
  unfold slowJudge
  cases s.bsq.slowTarget with
  | none => exact .refl s
  | some k => exact .ite (.refl s) (.ite (.ite (.refl s) (slowInsert_plain k s)) (limitRemove_plain _ s))

theorem slowChoose_plain (s : State) : Plain s (slowChoose s) := by
  unfold slowChoose
  dsimp only
  split
  · exact (withBsq_plain _ s).trans (limitRemove_plain _ _)
  · exact (withBsq_plain _ s).trans (.ite (slowInsert_plain _ _) (limitRemove_plain _ _))

theorem serviceChange_plain (k : Nat) (c : Cabin) (x : ServiceCause) (s : State) : Plain s (serviceChange k c x s) := by
  unfold serviceChange
  exact ((setCabin_plain k c s).trans (.ite (.refl _) (notify_plain _ _))).trans (slowJudge_plain _)

theorem activate_plain (m : Move) (s : State) : Plain s (activate m s) := by
  unfold activate
  exact (limitInsert_plain ..).trans (moveChanged_plain ..)

theorem promote_plain (s : State) : Plain s (promote s) := by
  unfold promote
  cases s.mvu.slotB with
  | none => exact .refl s
  | some m => exact .ite ((activate_plain m s).trans (moveChanged_plain ..)) (.refl s)

theorem finishA_plain (m : Move) (s : State) : Plain s (finishA m s) :=
  ((limitRemove_plain _ s).trans (moveChanged_plain ..)).trans (promote_plain _)

theorem submitMove_plain {kind : MoveKind} {origin : MoveOrigin} {s t : State} {sl : Slot} {m : Move}
    (h : submitMove kind origin s = .accepted sl m t) : Plain s t := by
  unfold submitMove at h
  dsimp only at h
  split at h
  · cases h
  · split at h
    · cases h
    · split at h
      · cases h
        exact (withMvu_plain _ s).trans (activate_plain _ _)
      · split at h
        · cases h
          exact (withMvu_plain _ s).trans (moveChanged_plain ..)
        · cases h

theorem cancelMove_plain {n : Nat} {s t : State} (h : cancelMove n s = .done t) : Plain s t := by
  unfold cancelMove at h
  split at h
  · split at h <;> cases h
    exact finishA_plain _ s
  · split at h
    · split at h <;> cases h
      exact moveChanged_plain ..
    · cases h

theorem resumeMove_plain {n : Nat} {s t : State} (h : resumeMove n s = .done t) : Plain s t := by
  unfold resumeMove at h
  split at h
  · split at h <;> cases h
    exact finishA_plain _ s
  · split at h <;> cases h

theorem moveAnswerState_plain {a : MoveAnswer} {s : State} (h : ∀ t, a = .done t → Plain s t) : Plain s (a.state s) := by
  cases a with
  | refused r => exact .refl s
  | done t => exact h t rfl

theorem giveUpMove_plain (k : Nat) (s : State) : Plain s (giveUpMove k s) := by
  unfold giveUpMove
  cases s.bsq.boardingMove with
  | none => exact .refl s
  | some b =>
    exact .ite (.ite (moveAnswerState_plain fun _ h => resumeMove_plain h)
      (moveAnswerState_plain fun _ h => cancelMove_plain h)) (.refl s)

theorem queueCommand_plain (k : Nat) (c : DoorCommand) (s : State) : Plain s (queueCommand k c s) := setNode_plain ..

theorem setPhase_plain (k : Nat) (ph : Phase) (s : State) : Plain s (setPhase k ph s) := by
  unfold setPhase
  exact (setCabin_plain k _ s).trans (.ite (.refl _) (setNode_plain ..))

theorem lockGate_plain (k : Nat) (s : State) : Plain s (lockGate k s) := withBsq_plain _ s

theorem evaluateFails_plain (k : Nat) (s : State) : Plain s (evaluateFails k s) := by
  unfold evaluateFails
  cases s.bsq.boardingMove with
  | none => exact .refl s
  | some b => exact .ite (giveUpMove_plain k s) (.refl s)

theorem submitStop_plain (k : Nat) (s : State) : Plain s (submitStop k s) := by
  unfold submitStop
  cases h : submitMove (.stopCabin k) .boarding s with
  | refused r f => exact .refl s
  | accepted sl m t => exact (submitMove_plain h).trans (withBsq_plain _ t)

theorem crossA_plain (k : Nat) (s : State) : Plain s (crossA k s) := by
  unfold crossA
  exact (((setCabin_plain k _ s).trans (.ite (setPhase_plain ..) (.refl _))).trans
    (.ite (submitStop_plain ..) (.refl _))).trans (slowChoose_plain _)

theorem releaseDoor_plain (k : Nat) (s : State) : Plain s (releaseDoor k s) :=
  (((limitInsert_plain ..).trans (setPhase_plain ..)).trans (setCabin_plain ..)).trans (queueCommand_plain ..)

theorem makePassing_plain (k : Nat) (c : SubCause) (s : State) : Plain s (makePassing k c s) :=
  (setPhase_plain ..).trans (setCabin_plain ..)

theorem closeCabin_plain (k : Nat) (s : State) : Plain s (closeCabin k s) := by
  unfold closeCabin
  exact ((((lockGate_plain k s).trans (queueCommand_plain ..)).trans (setPhase_plain ..)).trans
    (.ite (.refl _) (setCabin_plain ..))).trans (giveUpMove_plain k _)

theorem requalify_plain (k : Nat) (s : State) : Plain s (requalify k s) := by
  unfold requalify
  exact .ite (serviceChange_plain ..) (.refl s)

theorem depart_plain (k : Nat) (s : State) : Plain s (depart k s) :=
  (((((lockGate_plain k s).trans (setPhase_plain ..)).trans (setCabin_plain ..)).trans (requalify_plain k _)).trans
    (notify_plain _ _)).trans (giveUpMove_plain k _)

theorem crossX_plain (k : Nat) (s : State) : Plain s (crossX k s) := by
  unfold crossX
  exact .ite (setCabin_plain ..) (depart_plain k s)

theorem startTransaction_plain (k : Nat) (s : State) : Plain s (startTransaction k s) := by
  unfold startTransaction
  exact (withCru_plain _ s).trans (.ite (setNode_plain ..) (.refl _))

theorem beginRound_plain (s : State) : Plain s (beginRound s) := (withCru_plain _ s).trans (startTransaction_plain ..)

theorem beginTransaction_plain (s : State) : Plain s (beginTransaction s) := by
  unfold beginTransaction
  cases s.cru.nextSlot with
  | round => exact beginRound_plain s
  | window =>
    cases s.windowOrder with
    | nil => exact beginRound_plain s
    | cons k l => exact (withCru_plain _ s).trans (startTransaction_plain ..)

theorem endTransaction_plain (s : State) : Plain s (endTransaction s) := by
  unfold endTransaction
  exact .ite (beginTransaction_plain s) (withCru_plain _ s)

theorem addNotice_plain (n : Nat) (s : State) : Plain s (addNotice n s) := by
  unfold addNotice
  exact .ite (notify_plain _ s) (.ite (notify_plain _ s) (.refl s))

/-! ### The Boarding Sequencer's events -/

section Boarding

variable {C : FaultCode → Prop}

theorem settleCabins_chain (before s : State) : Chain C s (settleCabins before s) := by
  unfold settleCabins
  exact (Chain.plain (slowJudge_plain s)).trans (.ite (.refl _) (.bringHome _))

theorem balanceJudge_chain (s : State) : Chain C s (balanceJudge s) := by
  unfold balanceJudge
  exact .ite (.ite (.balanceOut s) (.refl s)) (.ite (.balanceIn s) (.refl s))

theorem formSums_chain (s : State) : Chain C s (formSums s) :=
  (Chain.plain (withBsq_plain _ s)).trans (balanceJudge_chain _)

theorem removeDoor_chain (k : Nat) (s : State) : Chain C s (removeDoor k s) := by
  unfold removeDoor
  exact .ite ((Chain.plain (limitRemove_plain _ s)).trans (.bringHome _)) (.refl s)

theorem admitGroup_chain (k : Nat) (g : Group) (rest : List Group) (s : State) : Chain C s (admitGroup k g rest s) := by
  unfold admitGroup
  exact ((Chain.plain ((((withBsq_plain _ s).trans (setCabin_plain ..)).trans (notify_plain _ _)).trans
    (.ite (notify_plain _ _) (.refl _)))).trans (settleCabins_chain s _)).trans
    (.ite (.refl _) (.plain (giveUpMove_plain k _)))

theorem evaluate_chain (k : Nat) (s : State) : Chain C s (evaluate k s) := by
  unfold evaluate
  cases s.bsq.queue with
  | nil => exact .plain (evaluateFails_plain k s)
  | cons g rest => exact .ite (admitGroup_chain ..) (.plain (evaluateFails_plain k s))

theorem changeToLoading_chain (k : Nat) (s : State) : Chain C s (changeToLoading k s) :=
  ((Chain.plain ((setCabin_plain k _ s).trans (setPhase_plain ..))).trans (settleCabins_chain s _)).trans
    (evaluate_chain k _)

theorem refuseRelease_chain (h : C .speedOverBoard) (k : Nat) (c : SubCause) (s : State) :
    Chain C s (refuseRelease k c s) := by
  unfold refuseRelease
  exact ((Chain.plain (makePassing_plain k c s)).trans (.ite (.report _ _ h) (.refl _))).trans
    (.plain (giveUpMove_plain k _))

theorem crossD_chain (h : C .speedOverBoard) (k : Nat) (s : State) : Chain C s (crossD k s) := by
  unfold crossD
  dsimp only
  split
  · exact .plain ((abortTrial_plain _ s).trans (releaseDoor_plain k _))
  · exact (Chain.plain (abortTrial_plain _ s)).trans (refuseRelease_chain h k _ _)

theorem closeUnloading_chain (k : Nat) (s : State) : Chain C s (closeUnloading k s) :=
  ((Chain.plain (setCabin_plain k _ s)).trans (settleCabins_chain s _)).trans (.plain (closeCabin_plain k _))

theorem crossEffect_chain (h : C .speedOverBoard) (k : Nat) (ln : PlatformLine) (s : State) :
    Chain C s (crossEffect k ln s) := by
  unfold crossEffect
  split
  · exact crossD_chain h k s
  · exact changeToLoading_chain k s
  · exact .plain (closeCabin_plain k s)
  · exact closeUnloading_chain k s
  iterate 3 exact .plain (crossX_plain k s)
  iterate 2 exact .plain ((closeCabin_plain k s).trans (crossX_plain k _))
  · exact .plain ((makePassing_plain k _ s).trans (crossX_plain k _))
  · exact .refl s

theorem crossing_chain (h : C .speedOverBoard) (k : Nat) (ln : PlatformLine) (s : State) :
    Chain C s (crossing k ln s) := by
  unfold crossing
  exact .ite (.plain (crossA_plain k s)) (crossEffect_chain h k ln s)

theorem lockReport_chain (k : Nat) (s : State) : Chain C s (lockReport k s) := by
  unfold lockReport
  exact ((Chain.plain (setCabin_plain k _ s)).trans (removeDoor_chain k _)).trans
    (.ite (.plain (depart_plain k _)) (.refl _))

theorem closeProgress_chain (k : Nat) (c : RingCommand) (d : Door) (s : State) : Chain C s (closeProgress k c d s) := by
  unfold closeProgress
  exact .ite ((Chain.plain (setCabin_plain k _ s)).trans (.ite (lockReport_chain k _) (.refl _))) (.refl s)

theorem seedPhase_chain (h : C .speedOverBoard) (k : Nat) (s : State) : Chain C s (seedPhase k s) := by
  unfold seedPhase
  dsimp only
  split
  · split
    · exact .plain ((setPhase_plain ..).trans (setCabin_plain ..))
    iterate 3 exact .plain ((makePassing_plain ..).trans (queueCommand_plain ..))
    iterate 2 exact .ite (.plain (depart_plain k s)) (.refl s)
  · exact Chain.foldl _ (fun s ln => crossEffect_chain h k ln s) _ s

theorem seedPhases_chain (h : C .speedOverBoard) (s : State) : Chain C s (seedPhases s) :=
  (Chain.foldl _ (fun s k => seedPhase_chain h k s) _ s).trans (.plain (slowChoose_plain _))

theorem doorHold_chain (h : C .doorCloseLate) (k : Nat) (r : Int) (s : State) : Chain C s (doorHold k r s) :=
  ((Chain.plain ((setPhase_plain ..).trans (setCabin_plain ..))).trans (.report _ _ h)).trans (.plain (notify_plain _ _))

theorem enterDoorHolds_chain (h : C .doorCloseLate) (curve : LimitPoint → Nat) (s : State) :
    Chain C s (enterDoorHolds curve s) := by
  refine Chain.foldl _ (fun t e => ?_) _ s
  cases e.origin with
  | door k => exact .ite (doorHold_chain h k _ t) (.refl t)
  | move | slow => exact .refl t

end Boarding

/-! ### The update's and the ring's parts -/

section Parts

variable {C : FaultCode → Prop}

theorem encoderReports_chain (p : Ptr) (s : State) : Chain (fun _ => True) s (encoderReports p s) := by
  unfold encoderReports
  exact (Chain.ite (.report _ _ trivial) (.refl s)).trans
    ((Chain.ite (.report _ _ trivial) (.refl _)).trans (.ite (.report _ _ trivial) (.refl _)))

theorem overrunEntry_chain (h : C .stopOverrun) (s : State) (e : LimitPoint) : Chain C s (overrunEntry s e) := by
  unfold overrunEntry
  cases e.origin with
  | door k => exact .ite ((Chain.plain (markOverrun_plain _ s)).trans (.report _ _ h)) (.refl s)
  | move | slow => exact .refl s

theorem overrunCheck_chain (h : C .stopOverrun) (s : State) : Chain C s (overrunCheck s) :=
  Chain.foldl _ (overrunEntry_chain h) _ s

theorem judgeMove_chain (m : Move) (r : Int) (s : State) : Chain C s (judgeMove m r s) := by
  unfold judgeMove
  refine .ite ?_ (.ite (.plain (finishA_plain _ s)) (.ite (.plain (finishA_plain _ s)) (.plain (setSlot_plain _ _ s))))
  cases m.kind with
  | stopCabin k => exact (Chain.plain (moveChanged_plain ..)).trans (.ite (changeToLoading_chain k _) (.refl _))
  | advance n => exact .plain (finishA_plain _ s)

theorem moveUpdate_chain (s : State) : Chain C s (moveUpdate s) := by
  unfold moveUpdate
  split
  · exact .ite (judgeMove_chain ..) (.refl s)
  · exact .refl s

theorem doorAway_chain (h : C .doorOpenAway) (k : Nat) (d : Door) (s : State) : Chain C s (doorAway k d s) := by
  unfold doorAway
  exact .ite (.ite ((Chain.plain (setNode_plain ..)).trans (.report _ _ h)) (.refl s)) (.plain (setNode_plain ..))

theorem replyFaults_chain (k : Nat) (b : Bool) (r : RingReply) (old : Node) (s : State) :
    Chain (fun _ => True) s (replyFaults k b r old s) := by
  unfold replyFaults
  exact (((Chain.ite (.report _ _ trivial) (.refl s)).trans (.ite (.report _ _ trivial) (.refl _))).trans
    (doorAway_chain trivial k _ _)).trans (.ite (.report _ _ trivial) (.refl _))

theorem replyCall_plain (k : Nat) (r : RingReply) (old : Node) (s : State) : Plain s (replyCall k r old s) := by
  unfold replyCall
  exact .ite (notify_plain _ s) (.refl s)

theorem takeReply_chain (k : Nat) (t : Transaction) (r : RingReply) (before s : State) :
    Chain C s (takeReply k t r before s) := by
  unfold takeReply
  exact (((Chain.ite (.plain (setCabin_plain ..)) (.refl s)).trans (closeProgress_chain ..)).trans
    (.ite (.refl _) ((formSums_chain _).trans (settleCabins_chain ..)))).trans (.ite (evaluate_chain k _) (.refl _))

theorem goodReply_chain (t : Transaction) (r : RingReply) (s : State) :
    Chain (fun _ => True) s (goodReply t r s) :=
  (((((Chain.plain (withCru_plain _ s)).trans (.plain (setNode_plain ..))).trans (replyFaults_chain ..)).trans
    (.plain (replyCall_plain ..))).trans (takeReply_chain ..)).trans (.plain (endTransaction_plain _))

theorem failTransaction_chain (t : Transaction) (s : State) : Chain (fun _ => True) s (failTransaction t s) := by
  unfold failTransaction
  exact ((((Chain.plain (withCru_plain _ s)).trans (.plain (setNode_plain ..))).trans
    (.ite (.refl _) (.report _ _ trivial))).trans (.plain (setCabin_plain ..))).trans (.plain (endTransaction_plain _))

theorem endTry_chain (t : Transaction) (s : State) : Chain (fun _ => True) s (endTry t s) := by
  unfold endTry
  exact .ite (failTransaction_chain t s) (.plain (withCru_plain _ s))

theorem replyArrives_chain (b : List Byte) (s : State) : Chain (fun _ => True) s (replyArrives b s) := by
  unfold replyArrives
  cases s.waiting with
  | none => exact .refl s
  | some t =>
    dsimp only
    cases judgeReply t b with
    | none => exact endTry_chain t s
    | some r => exact goodReply_chain t r s

theorem requestSent_plain (s : State) : Plain s (requestSent s) := by
  unfold requestSent
  cases s.cru.flight with
  | none => exact .refl s
  | some t => exact .ite (.refl s) (withCru_plain _ s)

theorem nodeTimeout_chain (s : State) : Chain (fun _ => True) s (nodeTimeout s) := by
  unfold nodeTimeout
  cases s.waiting with
  | none => exact .refl s
  | some t => exact endTry_chain t s

theorem windReports_chain (w : Wmn) (s : State) : Chain (fun _ => True) s (windReports w s) := by
  unfold windReports
  exact ((Chain.foldl _ (fun _ _ => .ite (.report _ _ trivial) (.refl _)) _ s).trans
    (Chain.foldl _ (fun _ _ => .ite (.report _ _ trivial) (.refl _)) _ _)).trans (.ite (.report _ _ trivial) (.refl _))

end Parts

end Sys2Proof.Machine

/-! Proofs: the agreement of the hold entries with their owners (R131, R147, R163) over a report and over every chain. -/

namespace Sys2Proof.Machine

/-! ### The parts of a report (R156) -/

/-- The record that a report makes (R157). -/
def State.reportRecord (s : State) (code : FaultCode) (subject : Option Nat) : FaultRecord :=
  { code := code, subject := subject, angle := s.ptr.angle, time := s.cfs.clock, beforeRestart := false }

/-- The code's bank after a report that is not masked. -/
def State.reportedBank (s : State) (code : FaultCode) (subject : Option Nat) : Bank :=
  ((s.bank code.bank).reported (s.reportRecord code subject)).1

theorem reportedBank_hold (s : State) (code : FaultCode) (subject : Option Nat) :
    (s.reportedBank code subject).hold =
      match code.action with
      | none => (s.bank code.bank).hold
      | some a => if (s.bank code.bank).hold.isSome then some .park else some a := by
  rw [State.reportedBank, Bank.reported_bank]
  rfl

theorem reportedBank_mask (s : State) (code : FaultCode) (subject : Option Nat) :
    (s.reportedBank code subject).mask = (s.bank code.bank).mask := by
  rw [State.reportedBank, Bank.reported_bank]

/-- A bank that has no hold level after a report had none before. -/
theorem reportedBank_hold_none {s : State} {code : FaultCode} {subject : Option Nat}
    (h : (s.reportedBank code subject).hold = none) : (s.bank code.bank).hold = none := by
  rw [reportedBank_hold] at h
  cases ha : code.action with
  | none => rwa [ha] at h
  | some a => rw [ha] at h; dsimp only at h; split at h <;> cases h

theorem report_masked {code : FaultCode} {s : State} (subject : Option Nat) (hm : (s.bank code.bank).masks code = true) :
    report code subject s = s := by
  rw [report, if_pos hm]

theorem cabinFault_plain (code : FaultCode) (k : Nat) (s : State) : Plain s (cabinFault code k s) :=
  serviceChange_plain ..

/-- The hand-over of a CABIN fault, where there is one (R165). -/
theorem subjectFault_plain (code : FaultCode) (subject : Option Nat) (s : State) :
    Plain s (match code.scope, subject with
      | .cabin, some k => cabinFault code k s
      | _, _ => s) := by
  split
  · exact cabinFault_plain ..
  · exact .refl s

/-- A report that is not masked writes its bank and plain parts, and then inserts the FAULT entry exactly when the bank's hold
level has changed (R163, R164). -/
theorem report_shape {code : FaultCode} {s : State} (subject : Option Nat) (hm : (s.bank code.bank).masks code = false) :
    ∃ m, Plain (setBank code.bank (s.reportedBank code subject) s) m ∧
      (((s.reportedBank code subject).hold = (s.bank code.bank).hold ∧ report code subject s = m) ∨
        ∃ a, (s.reportedBank code subject).hold = some a ∧ (s.bank code.bank).hold ≠ some a ∧
          report code subject s = holdInsert (.fault code.bank) a.level m) := by
  have hnone := reportedBank_hold_none (s := s) (code := code) (subject := subject)
  unfold report
  dsimp only
  rw [if_neg (by rw [hm]; exact Bool.noConfusion)]
  unfold State.reportedBank State.reportRecord at *
  generalize (s.bank code.bank).reported
    { code := code, subject := subject, angle := s.ptr.angle, time := s.cfs.clock, beforeRestart := false } = n at *
  obtain ⟨v, d⟩ := n
  dsimp only at *
  generalize hs1 : (if v.notifies code then _ else setBank code.bank v s) = s1
  have p1 : Plain (setBank code.bank v s) s1 := hs1 ▸ .ite (notify_plain ..) (.refl _)
  generalize hs2 : (if ((s.bank code.bank).counted code).thresholdDue code = true then _ else s1) = s2
  have p2 : Plain s1 s2 := hs2 ▸ .ite (notify_plain ..) (.refl _)
  refine ⟨_, (p1.trans p2).trans (subjectFault_plain code subject s2), ?_⟩
  cases hh : v.hold with
  | none => exact .inl ⟨(hnone hh).symm, rfl⟩
  | some a =>
    by_cases he : some a = (s.bank code.bank).hold
    · exact .inl ⟨he, if_pos he⟩
    · exact .inr ⟨a, rfl, fun h => he h.symm, if_neg he⟩

/-! ### Entries and owners over an event -/

/-- A bank agrees with its FAULT entry (R163). -/
def State.bankAgrees (s : State) (b : BankId) : Prop :=
  (s.hold (.fault b)).map HoldEntry.level = (s.bank b).hold.map FaultAction.level

/-- What an event that is no business of the Wind Monitor and the Platform Input Monitor does with the entries that have
owners: theirs stay with them, and the banks go on agreeing. -/
structure Owned (s t : State) : Prop where
  level : t.wmn.level = s.wmn.level
  wind : t.hold .wind = s.hold .wind
  group : ∀ g, t.group g = s.group g
  inputs : ∀ g, t.hold (.inputs g) = s.hold (.inputs g)
  banks : ∀ b, s.bankAgrees b → t.bankAgrees b
  masks : ∀ b, (t.bank b).mask = (s.bank b).mask

theorem Owned.refl (s : State) : Owned s s := ⟨rfl, rfl, fun _ => rfl, fun _ => rfl, fun _ => id, fun _ => rfl⟩

theorem Owned.trans {s t u : State} (h : Owned s t) (k : Owned t u) : Owned s u :=
  ⟨k.level.trans h.level, k.wind.trans h.wind, fun g => (k.group g).trans (h.group g),
    fun g => (k.inputs g).trans (h.inputs g), fun b => k.banks b ∘ h.banks b, fun b => (k.masks b).trans (h.masks b)⟩

theorem Owned.ite {s t u : State} {c : Prop} [Decidable c] (h : Owned s t) (k : Owned s u) :
    Owned s (if c then t else u) := by
  split
  · exact h
  · exact k

theorem Owned.agree {s t : State} (h : Owned s t) (a : EntriesAgree s) : EntriesAgree t where
  wind := by rw [h.wind, h.level]; exact a.wind
  inputs g := by rw [h.inputs, h.group]; exact a.inputs g
  banks b := h.banks b (a.banks b)
  masks b i := by rw [h.masks]; exact a.masks b i

/-- An update that reaches neither the owners nor the set. -/
theorem Owned.of_same {s t : State} (hw : t.wmn.level = s.wmn.level) (hp : ∀ g, t.group g = s.group g)
    (hb : t.fbu = s.fbu) (hh : ∀ id, id ≠ .boarding → id ≠ .balance → (∀ p, id ≠ .link p) →
      (∀ p r, id ≠ stationHold p r) → t.hold id = s.hold id) : Owned s t := by
  have hbank : ∀ b, t.bank b = s.bank b := fun b => by cases b <;> simp only [State.bank, hb]
  have hst : ∀ id : HoldId, (∀ r, id ≠ .controlRoom r ∧ id ≠ .platformDesk r) → ∀ p r, id ≠ stationHold p r :=
    fun id h p r => match p with
      | .p1 => (h r).1
      | .p2 => (h r).2
  exact
    { level := hw
      wind := hh _ (by simp) (by simp) (by simp) (hst _ (by simp))
      group := hp
      inputs := fun g => hh _ (by simp) (by simp) (by simp) (hst _ (by simp))
      banks := fun b h => by
        rw [State.bankAgrees, hh _ (by simp) (by simp) (by simp) (hst _ (by simp)), hbank]
        exact h
      masks := fun b => by rw [hbank] }

theorem group_congr {s t : State} (h : t.pim = s.pim) (g : GroupId) : t.group g = s.group g := by
  cases g <;> simp only [State.group, h]

theorem hold_congr {s t : State} (h : t.hlu = s.hlu) (id : HoldId) : t.hold id = s.hold id := by
  simp only [State.hold, h]

/-- An update outside the owners and the Hold Unit. -/
theorem Owned.of_blocks {s t : State} (hw : t.wmn = s.wmn) (hp : t.pim = s.pim) (hb : t.fbu = s.fbu)
    (hh : t.hlu = s.hlu) : Owned s t :=
  .of_same (by rw [hw]) (group_congr hp) hb fun id _ _ _ _ => hold_congr hh id

theorem Plain.owned {s t : State} (h : Plain s t) : Owned s t := by
  obtain ⟨_, _, _, _, _, rfl⟩ := h
  exact .of_blocks rfl rfl rfl rfl

theorem OwnEntry.owned {s t : State} (h : OwnEntry s t) (hw : t.wmn = s.wmn) : Owned s t :=
  .of_same (by rw [hw]) (group_congr h.pim) h.fbu fun id hb _ _ _ => h.hold id hb

theorem holdRemove_owned {id : HoldId} (s : State)
    (hid : id = .boarding ∨ id = .balance ∨ (∃ p, id = .link p) ∨ ∃ p r, id = stationHold p r) :
    Owned s (holdRemove id s) := by
  have hw : (holdRemove id s).wmn = s.wmn := (holdRemove_event id s).wmn
  by_cases hb : id = .boarding
  · subst hb
    unfold holdRemove at hw ⊢
    split at hw <;> rename_i hs
    · rw [if_pos hs]
      exact OwnEntry.owned ((boardingRemove_own s).trans
        ((handToWheel_handOver _ _).own.trans (bringHomeHandOver_own _))) hw
    · rw [if_neg hs]
      exact .refl s
  · have h := holdRemove_content hb s
    refine .of_same (by rw [hw]) (group_congr h.1.pim) h.1.fbu fun i h1 h2 h3 h4 => h.2.1 i ?_ h1
    rintro rfl
    rcases hid with hid | hid | ⟨p, hid⟩ | ⟨p, r, hid⟩
    · exact hb hid
    · exact h2 hid
    · exact h3 p hid
    · exact h4 p r hid

theorem holdInsert_owned {id : HoldId} {v : Level} {s : State} (hw : (holdInsert id v s).wmn = s.wmn)
    (hid : id = .balance ∨ (∃ p, id = .link p) ∨ ∃ p r, id = stationHold p r) : Owned s (holdInsert id v s) := by
  by_cases hv : v = .none
  · rw [holdInsert, if_pos hv]
    exact holdRemove_owned s (.inr hid)
  · have hb : id ≠ .boarding := by
      rcases hid with rfl | ⟨p, rfl⟩ | ⟨p, r, rfl⟩
      · simp
      · simp
      · cases p <;> simp [stationHold]
    have h := holdInsert_content hv hb s
    refine .of_same (by rw [hw]) (group_congr h.1.pim) h.1.fbu fun i h1 h2 h3 h4 => h.2.1 i ?_ h1
    rintro rfl
    rcases hid with hid | ⟨p, hid⟩ | ⟨p, r, hid⟩
    · exact h2 hid
    · exact h3 p hid
    · exact h4 p r hid

theorem setBank_owned {b : BankId} {v : Bank} {s : State} (hh : v.hold = (s.bank b).hold)
    (hm : v.mask = (s.bank b).mask) : Owned s (setBank b v s) where
  level := rfl
  wind := rfl
  group _ := rfl
  inputs _ := rfl
  banks x h := by
    unfold State.bankAgrees at *
    by_cases hx : x = b
    · subst hx; rwa [setBank_hold, setBank_bank_self, hh]
    · rwa [setBank_hold, setBank_bank_other s hx]
  masks x := by
    by_cases hx : x = b
    · subst hx; rw [setBank_bank_self, hm]
    · rw [setBank_bank_other s hx]

theorem FaultAction.level_ne_none (a : FaultAction) : a.level ≠ .none := by cases a <;> simp [FaultAction.level]

theorem bank_congr {s t : State} (h : t.fbu = s.fbu) (b : BankId) : t.bank b = s.bank b := by
  cases b <;> simp only [State.bank, h]

/-- A bank that takes a new hold level and its FAULT entry with it agrees, and the other owners are left alone. -/
theorem faultInsert_owned {b : BankId} {v : Bank} {a : FaultAction} {s m : State} (hp : Plain (setBank b v s) m)
    (hv : v.hold = some a) (hm : v.mask = (s.bank b).mask) : Owned s (holdInsert (.fault b) a.level m) := by
  have hc := holdInsert_content a.level_ne_none (id := .fault b) (by simp) m
  have hw : (holdInsert (.fault b) a.level m).wmn = s.wmn := by
    rw [(holdInsert_fault b a.level m).wmn]
    obtain ⟨_, _, _, _, _, rfl⟩ := hp
    rfl
  have hmf : m.fbu = (setBank b v s).fbu ∧ m.hlu = s.hlu ∧ m.pim = s.pim := by
    obtain ⟨_, _, _, _, _, rfl⟩ := hp
    exact ⟨rfl, rfl, rfl⟩
  obtain ⟨hfbu, hhlu, hpim⟩ := hmf
  obtain ⟨hu, hother, hself, -⟩ := hc
  have hbank : ∀ x, (holdInsert (.fault b) a.level m).bank x = (setBank b v s).bank x :=
    fun x => (bank_congr hu.fbu x).trans (bank_congr hfbu x)
  have hhold : ∀ i, i ≠ .fault b → i ≠ .boarding → (holdInsert (.fault b) a.level m).hold i = s.hold i :=
    fun i h1 h2 => (hother i h1 h2).trans (hold_congr hhlu i)
  refine ⟨by rw [hw], hhold _ (by simp) (by simp), fun g => (group_congr (hu.pim.trans hpim) g),
    fun g => hhold _ (by simp) (by simp), fun x h => ?_, fun x => ?_⟩
  · by_cases hx : x = b
    · subst hx
      rw [State.bankAgrees, hself, hbank, setBank_bank_self, hv]
      rfl
    · rw [State.bankAgrees, hhold _ (by simpa using hx) (by simp), hbank, setBank_bank_other s hx]
      exact h
  · rw [hbank]
    by_cases hx : x = b
    · subst hx; rw [setBank_bank_self, hm]
    · rw [setBank_bank_other s hx]

theorem report_owned (code : FaultCode) (subject : Option Nat) (s : State) : Owned s (report code subject s) := by
  cases hm : (s.bank code.bank).masks code with
  | true => rw [report_masked subject hm]; exact .refl s
  | false =>
    obtain ⟨m, hp, ⟨hh, he⟩ | ⟨a, ha, -, he⟩⟩ := report_shape subject hm
    · rw [he]
      exact (setBank_owned hh (reportedBank_mask ..)).trans hp.owned
    · rw [he]
      exact faultInsert_owned hp ha (reportedBank_mask ..)

/-- Every chain leaves the entries with their owners. -/
theorem Chain.owned {C : FaultCode → Prop} {s t : State} (h : Chain C s t) : Owned s t := by
  induction h with
  | plain h => exact h.owned
  | report k s _ => exact report_owned _ k s
  | balanceIn s => exact holdInsert_owned (holdInsert_balance .slow s).wmn (.inl rfl)
  | balanceOut s => exact holdRemove_owned s (.inr (.inl rfl))
  | bringHome s => exact (bringHomeJudge_own s).owned (bringHomeJudge_event s).wmn
  | trans _ _ h k => exact h.trans k

end Sys2Proof.Machine

/-! Proofs: the agreement of the hold entries with their owners where an owner changes: the wind (R131), the input groups
(R147), the acknowledged bank (R166) and the resets (R143). -/

namespace Sys2Proof.Machine

/-! ### The four agreements -/

/-- The wind level agrees with the WIND entry (R131). -/
def State.windAgrees (s : State) : Prop :=
  (s.hold .wind).map HoldEntry.level = if s.wmn.level = .calm then none else some s.wmn.level.hold

/-- A group agrees with its INPUTS entry (R147). -/
def State.groupAgrees (s : State) (g : GroupId) : Prop :=
  (s.hold (.inputs g)).map HoldEntry.level = if (s.group g).calls then some (s.group g).level else none

/-- The masks of a bank name SIGNAL codes of it (R158). -/
def State.masksAgree (s : State) (b : BankId) : Prop :=
  ∀ i, (s.bank b).mask.getLsbD i = true → ∃ c : FaultCode, c.number = i + 1 ∧ c.bank = b ∧ c.scope = .signal

theorem entriesAgree_iff (s : State) :
    EntriesAgree s ↔
      s.windAgrees ∧ (∀ g, s.groupAgrees g) ∧ (∀ b, s.bankAgrees b) ∧ ∀ b, s.masksAgree b :=
  ⟨fun ⟨w, i, b, m⟩ => ⟨w, i, b, m⟩, fun ⟨w, i, b, m⟩ => ⟨w, i, b, m⟩⟩

theorem masksAgree_congr {s t : State} {b : BankId} (h : (t.bank b).mask = (s.bank b).mask) (k : s.masksAgree b) :
    t.masksAgree b := by
  unfold State.masksAgree at *
  rwa [h]

theorem WindLevel.hold_ne_none {w : WindLevel} (h : w ≠ .calm) : w.hold ≠ .none := by
  cases w <;> simp [WindLevel.hold] at *

/-! ### The wind's entry (R131, R132) -/

/-- What a change of an entry that belongs to one owner leaves to all the others. -/
structure EntryOf (id : HoldId) (s t : State) : Prop where
  wmn : t.wmn = s.wmn
  pim : t.pim = s.pim
  fbu : t.fbu = s.fbu
  hold : ∀ i, i ≠ id → i ≠ .boarding → t.hold i = s.hold i

theorem holdRemove_entryOf {id : HoldId} (h : id ≠ .boarding) (s : State) : EntryOf id s (holdRemove id s) :=
  have hc := holdRemove_content h s
  ⟨(holdRemove_event id s).wmn, hc.1.pim, hc.1.fbu, hc.2.1⟩

theorem holdInsert_entryOf {id : HoldId} {v : Level} {s : State} (h : id ≠ .boarding)
    (hw : (holdInsert id v s).wmn = s.wmn) : EntryOf id s (holdInsert id v s) := by
  by_cases hv : v = .none
  · rw [holdInsert, if_pos hv]
    exact holdRemove_entryOf h s
  · have hc := holdInsert_content hv h s
    exact ⟨hw, hc.1.pim, hc.1.fbu, hc.2.1⟩

theorem holdInsert_hold {id : HoldId} (h : id ≠ .boarding) (v : Level) (s : State) :
    ((holdInsert id v s).hold id).map HoldEntry.level = if v = .none then none else some v := by
  by_cases hv : v = .none
  · rw [if_pos hv, holdInsert, if_pos hv, (holdRemove_content h s).2.2.1]
    rfl
  · rw [if_neg hv, (holdInsert_content hv h s).2.2.1]
    rfl

theorem windHandOver_entryOf (p : Option WindLevel) (c : WindCause) (s : State) : EntryOf .wind s (windHandOver p c s) :=
  have h := holdInsert_entryOf (id := .wind) (by simp) (holdInsert_wind s.wmn.level.hold s).wmn
  ⟨h.wmn, h.pim, h.fbu, h.hold⟩

theorem windHandOver_agrees (p : Option WindLevel) (c : WindCause) (s : State) : (windHandOver p c s).windAgrees := by
  have hw : (windHandOver p c s).wmn = s.wmn := (windHandOver_entryOf p c s).wmn
  rw [State.windAgrees, hw]
  refine (holdInsert_hold (id := .wind) (by simp) s.wmn.level.hold s).trans ?_
  cases s.wmn.level <;> rfl

theorem EntryOf.bankAgrees {s t : State} (h : EntryOf .wind s t) {b : BankId} (k : s.bankAgrees b) : t.bankAgrees b := by
  rwa [State.bankAgrees, h.hold _ (by simp) (by simp), bank_congr h.fbu]

theorem EntryOf.groupAgrees {s t : State} (h : EntryOf .wind s t) {g : GroupId} (k : s.groupAgrees g) :
    t.groupAgrees g := by
  rwa [State.groupAgrees, h.hold _ (by simp) (by simp), group_congr h.pim]

/-- The WIND entry handed over brings the wind into agreement and leaves the other owners alone. -/
theorem windHandOver_agree {p : Option WindLevel} {c : WindCause} {s : State} (hg : ∀ g, s.groupAgrees g)
    (hb : ∀ b, s.bankAgrees b) (hm : ∀ b, s.masksAgree b) : EntriesAgree (windHandOver p c s) := by
  have h := windHandOver_entryOf p c s
  exact (entriesAgree_iff _).mpr ⟨windHandOver_agrees p c s, fun g => h.groupAgrees (hg g),
    fun b => h.bankAgrees (hb b), fun b => masksAgree_congr (by rw [bank_congr h.fbu]) (hm b)⟩

/-- A new state of the Wind Monitor, after reports of it, agrees once its entry is handed over where the level has changed. -/
theorem windStep_agree {p : Option WindLevel} {c : WindCause} {w : Wmn} {s t : State}
    (hc : Owned { s with wmn := w } t) (hw : t.wmn = w) (h : EntriesAgree s) :
    EntriesAgree (if w.level = s.wmn.level then t else windHandOver p c t) := by
  obtain ⟨ha, hg, hb, hm⟩ := (entriesAgree_iff s).mp h
  have hg' : ∀ g, t.groupAgrees g := fun g => by
    rw [State.groupAgrees, hc.inputs, hc.group]
    exact hg g
  have hb' : ∀ b, t.bankAgrees b := fun b => hc.banks b (hb b)
  have hm' : ∀ b, t.masksAgree b := fun b => masksAgree_congr (hc.masks b) (hm b)
  split
  · next he =>
    refine (entriesAgree_iff t).mpr ⟨?_, hg', hb', hm'⟩
    rw [State.windAgrees, hc.wind, hw, he]
    exact ha
  · exact windHandOver_agree hg' hb' hm'

theorem windSample_agree {s : State} (h : EntriesAgree s) : EntriesAgree (windSample s) := by
  have hc := windReports_chain s.wmn { s with wmn := s.wmn.sampleAfter }
  exact windStep_agree hc.owned (windReports_event _ _).wmn h

theorem selectProfile_agree {id : ProfileId} {s : State} (h : EntriesAgree s) : EntriesAgree (selectProfile id s) := by
  unfold selectProfile
  split
  · exact h
  · exact windStep_agree (.refl { s with wmn := s.wmn.selected id }) rfl h

/-! ### The groups' entries (R146, R147) -/

/-- What the work on one group leaves to all owners but that group. -/
structure OwnedBut (g : GroupId) (s t : State) : Prop where
  level : t.wmn.level = s.wmn.level
  wind : t.hold .wind = s.hold .wind
  group : ∀ x, x ≠ g → t.group x = s.group x
  inputs : ∀ x, x ≠ g → t.hold (.inputs x) = s.hold (.inputs x)
  banks : ∀ b, s.bankAgrees b → t.bankAgrees b
  masks : ∀ b, (t.bank b).mask = (s.bank b).mask

theorem Owned.but {s t : State} (h : Owned s t) (g : GroupId) : OwnedBut g s t :=
  ⟨h.level, h.wind, fun x _ => h.group x, fun x _ => h.inputs x, h.banks, h.masks⟩

theorem OwnedBut.trans {g : GroupId} {s t u : State} (h : OwnedBut g s t) (k : OwnedBut g t u) : OwnedBut g s u :=
  ⟨k.level.trans h.level, k.wind.trans h.wind, fun x hx => (k.group x hx).trans (h.group x hx),
    fun x hx => (k.inputs x hx).trans (h.inputs x hx), fun b => k.banks b ∘ h.banks b,
    fun b => (k.masks b).trans (h.masks b)⟩

/-- With the group itself in agreement again, all owners are. -/
theorem OwnedBut.agree {g : GroupId} {s t : State} (h : OwnedBut g s t) (hg : t.groupAgrees g) (a : EntriesAgree s) :
    EntriesAgree t where
  wind := by rw [h.wind, h.level]; exact a.wind
  inputs x := by
    by_cases hx : x = g
    · exact hx ▸ hg
    · rw [h.inputs x hx, h.group x hx]; exact a.inputs x
  banks b := h.banks b (a.banks b)
  masks b i := by rw [h.masks]; exact a.masks b i

theorem setGroup_but (g : GroupId) (v : InputGroup) (s : State) : OwnedBut g s (setGroup g v s) :=
  ⟨rfl, rfl, fun _ hx => setGroup_group_other s hx v, fun _ _ => rfl, fun _ h => h, fun _ => rfl⟩

theorem EntryOf.but {g : GroupId} {s t : State} (h : EntryOf (.inputs g) s t) : OwnedBut g s t :=
  ⟨by rw [h.wmn], h.hold _ (by simp) (by simp), fun x _ => group_congr h.pim x,
    fun x hx => h.hold _ (by simpa using hx) (by simp), fun b k => by
      rwa [State.bankAgrees, h.hold _ (by simp) (by simp), bank_congr h.fbu],
    fun b => by rw [bank_congr h.fbu]⟩

theorem judgeInputs_entryOf (g : GroupId) (s : State) : EntryOf (.inputs g) s (judgeInputs g s) := by
  have hin := holdInsert_entryOf (id := .inputs g) (by simp) (holdInsert_inputs g (s.group g).level s).wmn
  unfold judgeInputs
  dsimp only
  split
  · split
    · exact hin
    · split
      · exact ⟨rfl, rfl, rfl, fun _ _ _ => rfl⟩
      · exact hin
  · exact holdRemove_entryOf (by simp) s

/-- A judged group agrees with its entry (R147). -/
theorem judgeInputs_agrees (g : GroupId) (s : State) : (judgeInputs g s).groupAgrees g := by
  have hin := holdInsert_hold (id := .inputs g) (by simp) (s.group g).level s
  rw [State.groupAgrees, group_congr (judgeInputs_entryOf g s).pim]
  unfold judgeInputs
  dsimp only
  by_cases hc : (s.group g).calls = true
  · have hl : (s.group g).level ≠ .none := fun h => by simp [InputGroup.calls, h] at hc
    rw [if_neg hl] at hin
    rw [if_pos hc, if_pos hc]
    cases he : s.hold (.inputs g) with
    | none => exact hin
    | some e =>
      dsimp only
      split
      · next h => rw [he]; exact congrArg some h
      · exact hin
  · rw [if_neg hc, if_neg hc, (holdRemove_content (by simp) s).2.2.1]
    rfl

theorem groupDeparts_but (g : GroupId) (c : InputCause) (s : State) : OwnedBut g s (groupDeparts g c s) := by
  unfold groupDeparts
  dsimp only
  exact ((setGroup_but g _ s).trans (Owned.ite (notify_plain _ _).owned (.refl _) |>.but g)).trans
    ((report_owned _ _ _).but g)

theorem formMatch_but (g : GroupId) (c : InputCause) (s : State) : OwnedBut g s (formMatch g c s) := by
  unfold formMatch
  dsimp only
  split
  · exact setGroup_but g _ s
  · split
    · exact groupDeparts_but g c s
    · exact (Owned.refl s).but g

theorem reformGroup_but (g : GroupId) (c : InputCause) (s : State) : OwnedBut g s (reformGroup g c s) :=
  (formMatch_but g c s).trans (judgeInputs_entryOf g _).but

theorem reformGroup_agrees (g : GroupId) (c : InputCause) (s : State) : (reformGroup g c s).groupAgrees g :=
  judgeInputs_agrees g _

theorem withInputs_owned (l : List Input) (s : State) : Owned s { s with pim := { s.pim with inputs := l } } :=
  .of_same rfl (fun g => by cases g <;> rfl) rfl fun _ _ _ _ _ => rfl

theorem inputChange_agree {i : Nat} {s : State} (h : EntriesAgree s) : EntriesAgree (inputChange i s) := by
  unfold inputChange
  split
  · exact (reformGroup_but _ _ _).agree (reformGroup_agrees ..) ((withInputs_owned _ s).agree h)
  · exact h

theorem factorClear_agree {g : GroupId} {s : State} (h : EntriesAgree s) : EntriesAgree (factorClear g s) :=
  ((setGroup_but g _ s).trans (judgeInputs_entryOf g _).but).agree (judgeInputs_agrees g _) h

theorem inputsWrite_agree {g : GroupId} {a b : BitVec 8} {v : Level} {n : Bool} {s : State} (h : EntriesAgree s) :
    EntriesAgree (inputsWrite g a b v n s) := by
  unfold inputsWrite
  dsimp only
  split
  · exact ((setGroup_but g _ s).trans (reformGroup_but ..)).agree (reformGroup_agrees ..) h
  · split
    · exact ((setGroup_but g _ s).trans (judgeInputs_entryOf g _).but).agree (judgeInputs_agrees g _) h
    · next hl =>
      have hl : (s.group g).level = v := Decidable.not_not.mp hl
      refine (setGroup_but g _ s).agree ?_ h
      rw [State.groupAgrees, setGroup_group_self, setGroup_hold]
      subst hl
      exact h.inputs g

theorem groupResetEnd_but (g : GroupId) (s : State) : OwnedBut g s (groupResetEnd g s) :=
  (setGroup_but g _ s).trans (reformGroup_but ..)

theorem groupResetEnd_agrees (g : GroupId) (s : State) : (groupResetEnd g s).groupAgrees g := reformGroup_agrees ..

/-- The end of a reset brings both groups into agreement, and keeps that of the other owners. -/
theorem inputsResetEnd_agree {s : State} (hw : s.windAgrees) (hb : ∀ b, s.bankAgrees b) (hm : ∀ b, s.masksAgree b) :
    EntriesAgree (inputsResetEnd s) := by
  let u := { s with pim := { s.pim with inputs := s.pim.inputs.map Input.taken } }
  have h0 := (withInputs_owned (s.pim.inputs.map Input.taken) s).but .g0
  have h1 := h0.trans (groupResetEnd_but .g0 u)
  have h2 := groupResetEnd_but .g1 (groupResetEnd .g0 u)
  have a0 : (groupResetEnd .g1 (groupResetEnd .g0 u)).groupAgrees .g0 := by
    rw [State.groupAgrees, h2.inputs _ (by simp), h2.group _ (by simp)]
    exact groupResetEnd_agrees .g0 u
  refine (entriesAgree_iff _).mpr ⟨?_, fun g => ?_, fun b => ?_, fun b => ?_⟩
  · rw [State.windAgrees]
    refine (congrArg (Option.map _) (h2.wind.trans h1.wind)).trans ?_
    rw [show (inputsResetEnd s).wmn.level = s.wmn.level from h2.level.trans h1.level]
    exact hw
  · cases g
    · exact a0
    · exact groupResetEnd_agrees .g1 _
  · exact h2.banks b (h1.banks b (hb b))
  · exact masksAgree_congr ((h2.masks b).trans (h1.masks b)) (hm b)

/-! ### A bank acknowledged or masked (R158, R166) -/

theorem acknowledge_agree {b : BankId} {s : State} (h : EntriesAgree s) : EntriesAgree (acknowledge b s) := by
  unfold acknowledge
  split
  · have hc := holdRemove_entryOf (id := .fault b) (by simp) (setBank b { s.bank b with hold := none } s)
    have hn := (holdRemove_content (id := .fault b) (by simp) (setBank b { s.bank b with hold := none } s)).2.2.1
    have hbank := bank_congr hc.fbu
    refine (entriesAgree_iff _).mpr ⟨?_, fun g => ?_, fun x => ?_, fun x => ?_⟩
    · rw [State.windAgrees, hc.hold _ (by simp) (by simp), hc.wmn]
      exact h.wind
    · rw [State.groupAgrees, hc.hold _ (by simp) (by simp), group_congr hc.pim]
      exact h.inputs g
    · by_cases hx : x = b
      · subst hx
        rw [State.bankAgrees, hn, hbank, setBank_bank_self]
        rfl
      · rw [State.bankAgrees, hc.hold _ (by simpa using hx) (by simp), hbank, setBank_bank_other s hx]
        exact h.banks x
    · refine masksAgree_congr ?_ (h.masks x)
      rw [hbank]
      by_cases hx : x = b
      · subst hx; rw [setBank_bank_self]
      · rw [setBank_bank_other s hx]
  · exact h

/-- A mask changed at one bit of a SIGNAL code of its bank goes on naming such codes. -/
theorem setMask_agree {b : BankId} {c : FaultCode} {on : Bool} {s : State} (hb : c.bank = b) (hs : c.scope = .signal)
    (h : EntriesAgree s) :
    EntriesAgree (setBank b { s.bank b with mask := maskedWith (s.bank b).mask c on } s) := by
  refine (entriesAgree_iff _).mpr ⟨h.wind, h.inputs, fun x => ?_, fun x => ?_⟩
  · by_cases hx : x = b
    · subst hx
      rw [State.bankAgrees, setBank_bank_self]
      exact h.banks x
    · rw [State.bankAgrees, setBank_bank_other s hx]
      exact h.banks x
  · by_cases hx : x = b
    · subst hx
      intro i hi
      rw [setBank_bank_self] at hi
      by_cases hbit : (s.bank x).mask.getLsbD i = true
      · exact h.masks x i hbit
      · have hset : i = c.number - 1 := by
          unfold maskedWith at hi
          cases on <;> simp [hbit] at hi
          rw [BitVec.getLsbD_ofNat, Nat.one_shiftLeft, Nat.testBit_two_pow] at hi
          simp at hi
          omega
        have hpos : 1 ≤ c.number := by cases c <;> decide
        exact ⟨c, by omega, hb, hs⟩
    · exact masksAgree_congr (by rw [setBank_bank_other s hx]) (h.masks x)

/-! ### The resets (R134, R135, R143, R171) -/

theorem coldReset_agree (s : State) : EntriesAgree (coldReset s) where
  wind := rfl
  inputs g := by cases g <;> rfl
  banks b := by cases b <;> rfl
  masks b i h := by
    have hm : ((coldReset s).bank b).mask = 0 := by cases b <;> rfl
    simp [hm] at h

theorem brakeWaitStarts_owned (s : State) : Owned s (brakeWaitStarts s) := .of_blocks rfl rfl rfl rfl

theorem coldResetEnd_agree {s : State} (h : EntriesAgree s) : EntriesAgree (coldResetEnd s) := by
  unfold coldResetEnd
  split
  · obtain ⟨-, hg, hb, hm⟩ := (entriesAgree_iff s).mp h
    have ha := windHandOver_agree (p := none) (c := .reset)
      (s := brakeWaitStarts { s with
        time := { resetHeld := false, control := 0, sample := 0, second := 0 }
        ptr := { s.ptr with sample := s.ptr.counter }
        wmn := s.wmn.resetEnd }) hg hb hm
    obtain ⟨hw, -, hb', hm'⟩ := (entriesAgree_iff _).mp ha
    exact inputsResetEnd_agree hw hb' hm'
  · exact h

/-- A pending bank's FAULT entry, inserted again, agrees with it (R171). -/
theorem bankReinserted_agrees {b : BankId} {s : State} (h : s.bankAgrees b ∨ s.hold (.fault b) = none) :
    (bankReinserted s b).bankAgrees b := by
  unfold bankReinserted
  cases hh : (s.bank b).hold with
  | none =>
    rcases h with h | h
    · exact h
    · rw [State.bankAgrees, h, hh]; rfl
  | some a =>
    have hc := holdInsert_content a.level_ne_none (id := .fault b) (by simp) s
    show State.bankAgrees (holdInsert (.fault b) a.level s) b
    rw [State.bankAgrees, hc.2.2.1, bank_congr hc.1.fbu, hh]
    rfl

theorem bankReinserted_entryOf (b : BankId) (s : State) : EntryOf (.fault b) s (bankReinserted s b) := by
  unfold bankReinserted
  cases (s.bank b).hold with
  | none => exact ⟨rfl, rfl, rfl, fun _ _ _ => rfl⟩
  | some a => exact holdInsert_entryOf (by simp) (holdInsert_fault b a.level s).wmn

/-- After the reinsertion every bank of the list agrees, and the wind and the banks are as they were. -/
theorem reinserted_agree (l : List BankId) (s : State) (h : ∀ b, s.bankAgrees b ∨ s.hold (.fault b) = none) :
    (∀ b, b ∈ l ∨ s.bankAgrees b → (l.foldl bankReinserted s).bankAgrees b) ∧
      (l.foldl bankReinserted s).hold .wind = s.hold .wind ∧ (l.foldl bankReinserted s).wmn = s.wmn ∧
      (l.foldl bankReinserted s).fbu = s.fbu := by
  induction l generalizing s with
  | nil => exact ⟨fun b hb => hb.resolve_left (List.not_mem_nil), rfl, rfl, rfl⟩
  | cons x l ih =>
    have he := bankReinserted_entryOf x s
    have hx := bankReinserted_agrees (h x)
    have hkeep : ∀ b, b ≠ x → s.bankAgrees b → (bankReinserted s x).bankAgrees b := fun b hb k => by
      rwa [State.bankAgrees, he.hold _ (by simpa using hb) (by simp), bank_congr he.fbu]
    have hnext : ∀ b, (bankReinserted s x).bankAgrees b ∨ (bankReinserted s x).hold (.fault b) = none := fun b => by
      by_cases hb : b = x
      · exact .inl (hb ▸ hx)
      · exact (h b).imp (hkeep b hb) fun k => (he.hold _ (by simpa using hb) (by simp)).trans k
    obtain ⟨hall, hw, hwmn, hfbu⟩ := ih _ hnext
    refine ⟨fun b hb => hall b ?_, hw.trans (he.hold _ (by simp) (by simp)), hwmn.trans he.wmn, hfbu.trans he.fbu⟩
    by_cases hbx : b = x
    · exact .inr (hbx ▸ hx)
    · exact hb.imp (fun k => (List.mem_cons.mp k).resolve_left hbx) (hkeep b hbx)

theorem warmReset_agree {s : State} (h : EntriesAgree s) : EntriesAgree (warmReset s) := by
  let u := brakeWaitStarts (warmResetHeld s)
  have hmask : ∀ b, (u.bank b).mask = (s.bank b).mask := fun b => by cases b <;> rfl
  have he := windHandOver_entryOf none .reset u
  have hnone : ∀ b, (windHandOver none .reset u).bankAgrees b ∨ (windHandOver none .reset u).hold (.fault b) = none :=
    fun b => .inr (he.hold _ (by simp) (by simp))
  obtain ⟨hb, hw, hwmn, hfbu⟩ := reinserted_agree allBanks _ hnone
  refine inputsResetEnd_agree ?_ (fun b => hb b (.inl (by cases b <;> decide)))
    fun b => masksAgree_congr (s := s) ?_ (h.masks b)
  · rw [State.windAgrees, hw, hwmn]
    exact windHandOver_agrees none .reset u
  · rw [bank_congr (hfbu.trans he.fbu), hmask]

end Sys2Proof.Machine

/-! Proofs: every command keeps the entries with their owners: the updates, the ports and the requests (R131, R147, R158,
R163). -/

namespace Sys2Proof.Machine

/-! ### The control update -/

theorem Owned.foldl {α : Type} (f : State → α → State) (hf : ∀ s a, Owned s (f s a)) (l : List α) :
    ∀ s, Owned s (l.foldl f s) := by
  induction l with
  | nil => exact .refl
  | cons a l ih => exact fun s => (hf s a).trans (ih _)

/-- What follows an update outside the owners and the Hold Unit. -/
theorem Owned.from {s t u : State} (h : Owned u t) (hw : u.wmn = s.wmn) (hp : u.pim = s.pim) (hb : u.fbu = s.fbu)
    (hh : u.hlu = s.hlu) : Owned s t := (Owned.of_blocks hw hp hb hh).trans h

/-- An update of the Rotation Controller alone. -/
theorem withRoc_owned (r : Roc) (s : State) : Owned s { s with roc := r } := .of_blocks rfl rfl rfl rfl

theorem seedAll_owned (s : State) : Owned s (seedAll s) := by
  unfold seedAll
  exact Owned.trans (t := seedRecords s) (.of_blocks rfl rfl rfl rfl)
    (.ite (seedPhases_chain (C := fun _ => True) trivial _).owned (.refl _))

theorem setPassRecord_owned (k : Nat) (r : Option PlatformLine) (s : State) : Owned s (setPassRecord k r s) :=
  .of_blocks rfl rfl rfl rfl

theorem clearLeavers_owned (s : State) : Owned s (clearLeavers s) :=
  Owned.foldl _ (fun t k => .ite (setPassRecord_owned k none t) (.refl t)) _ s

theorem noteSlowCrossed_plain (k : Nat) (ln : PlatformLine) (s : State) : Plain s (noteSlowCrossed k ln s) := by
  unfold noteSlowCrossed
  exact .ite (withBsq_plain _ s) (.refl s)

theorem raiseCrossing_owned (k : Nat) (s : State) (ln : PlatformLine) : Owned s (raiseCrossing k s ln) := by
  unfold raiseCrossing
  exact .ite ((setPassRecord_owned k (some ln) s).trans
    ((noteSlowCrossed_plain k ln _).owned.trans (crossing_chain (C := fun _ => True) trivial k ln _).owned)) (.refl s)

theorem raiseCrossings_owned (before : Nat) (s : State) : Owned s (raiseCrossings before s) :=
  Owned.foldl _ (fun s k => Owned.foldl _ (raiseCrossing_owned k) _ s) _ s

theorem passUpdate_owned (before : Ptr) (s : State) : Owned s (passUpdate before s) := by
  unfold passUpdate
  exact (Owned.ite (seedAll_owned s) (.ite (raiseCrossings_owned _ s) (.refl s))).trans (clearLeavers_owned _)

theorem settleUpdate_owned (s : State) : Owned s (settleUpdate s) := .of_blocks rfl rfl rfl rfl

theorem updateWheel_owned (s : State) : Owned s (updateWheel s) :=
  (((settleUpdate_owned s).trans (encoderReports_chain _ _).owned).trans (passUpdate_owned _ _)).trans
    (overrunCheck_chain (C := fun _ => True) trivial _).owned

theorem enterStanding_owned (v : Nat) (s : State) : Owned s (enterStanding v s) :=
  (withRoc_owned _ s).trans (enterDoorHolds_chain (C := fun _ => True) trivial _ _).owned

theorem rotationStep_owned (s : State) : Owned s (rotationStep s) := by
  unfold rotationStep
  split
  · unfold brakedStep
    exact (withRoc_owned _ s).trans (.ite (.ite (withRoc_owned _ _) (withRoc_owned _ _)) (withRoc_owned _ _))
  · exact withRoc_owned _ s
  · split
    · unfold trialStepUpdate
      exact (withRoc_owned _ s).trans (.ite (enterStanding_owned _ _) (.refl _))
    · unfold runningStep
      exact (withRoc_owned _ s).trans (.ite (enterStanding_owned _ _) (.refl _))
  · unfold standingStep
    exact (withRoc_owned _ s).trans (.ite (withRoc_owned _ _) (withRoc_owned _ _))
  · exact withRoc_owned _ s

theorem trackingCheck_owned (b : Bool) (s : State) : Owned s (trackingCheck b s) := by
  unfold trackingCheck
  exact .ite ((withRoc_owned _ s).trans (report_owned ..)) (withRoc_owned _ s)

theorem completeTrial_owned (s : State) : Owned s (completeTrial s) := by
  unfold completeTrial
  exact ((Owned.ite (.refl _) (report_owned ..)).trans (notify_plain _ _).owned).from rfl rfl rfl rfl

theorem trialUpdate_owned (d : Int) (s : State) : Owned s (trialUpdate d s) := by
  unfold trialUpdate
  exact .ite ((Owned.ite (completeTrial_owned _) (.refl _)).from rfl rfl rfl rfl) (.refl s)

theorem controlUpdate_owned (s : State) : Owned s (controlUpdate s) :=
  (((((updateWheel_owned s).trans (rotationStep_owned _)).trans (trackingCheck_owned _ _)).trans
    (trialUpdate_owned _ _)).trans (moveUpdate_chain (C := fun _ => True) _).owned).trans (withRoc_owned _ _)

/-! ### Lines, timers and pins -/

theorem releaseTimeout_owned (s : State) : Owned s (releaseTimeout s) := by
  unfold releaseTimeout
  exact .ite ((withRoc_owned _ s).trans (report_owned ..)) (.refl s)

theorem brakeSetTimeout_owned (s : State) : Owned s (brakeSetTimeout s) := by
  unfold brakeSetTimeout
  exact .ite ((withRoc_owned _ s).trans (report_owned ..)) (.refl s)

theorem standExpires_owned (s : State) : Owned s (standExpires s) := by
  unfold standExpires
  exact .ite (withRoc_owned _ s) (.refl s)

theorem pulse_owned (ch : Channel) (s : State) : Owned s (pulse ch s) :=
  .of_same rfl (fun _ => rfl) rfl fun _ _ _ _ _ => rfl

/-! ### Configuration and device state -/

theorem setPort_owned (p : Port) (q : PortState) (s : State) : Owned s (setPort p q s) := (setPort_plain p q s).owned

theorem geometryWrite_owned (g : Geometry) (s : State) : Owned s (geometryWrite g s) := by
  unfold geometryWrite
  exact (Chain.owned ((formSums_chain (C := fun _ => True) _).trans (settleCabins_chain s _))).from rfl rfl rfl rfl

theorem linkRemove_owned (p : Port) (s : State) : Owned s (holdRemove (.link p) s) :=
  holdRemove_owned s (.inr (.inr (.inl ⟨p, rfl⟩)))

theorem linkInsert_owned (p : Port) (v : Level) (s : State) : Owned s (holdInsert (.link p) v s) :=
  holdInsert_owned (holdInsert_link p v s).wmn (.inr (.inl ⟨p, rfl⟩))

theorem linkWrite_owned (p : Port) (time : Nat) (v : Level) (a b : Bool) (s : State) :
    Owned s (linkWrite p time v a b s) := by
  unfold linkWrite
  exact (setPort_owned p _ s).trans (.ite (linkRemove_owned p _) (.ite (linkInsert_owned p v _) (.refl _)))

theorem configWrite_agree {e : Entry} {list : List (Nat × Int)} {v : List Int} {s : State} (h : EntriesAgree s) :
    EntriesAgree (configWrite e list v s) := by
  cases e with
  | geometry => exact (geometryWrite_owned _ s).agree h
  | zones | ring => exact Owned.agree (s := s) (.of_blocks rfl rfl rfl rfl) h
  | speeds => exact Owned.agree (s := s) (.of_blocks rfl rfl rfl rfl) h
  | boarding =>
    exact ((settleCabins_chain (C := fun _ => True) s { s with cfs := { s.cfs with boarding := boardingOf v } }).owned.from
      (s := s) rfl rfl rfl rfl).agree h
  | balance =>
    exact ((balanceJudge_chain (C := fun _ => True) { s with cfs := { s.cfs with balance := balanceOf v } }).owned.from
      (s := s) rfl rfl rfl rfl).agree h
  | windChannel c => exact Owned.agree (s := s) (.of_same rfl (fun _ => rfl) rfl fun _ _ _ _ _ => rfl) h
  | inputGroup g => exact inputsWrite_agree h
  | faultBank b =>
    exact (setBank_owned (b := b) (s := s) (v := { s.bank b with
      threshold := natValue v 1, noticeCorrectable := boolOf v 2, noticeDeferred := boolOf v 3 }) rfl rfl).agree h
  | linkPort p => exact (linkWrite_owned ..).agree h

theorem startRing_plain (s : State) : Plain s (startRing s) := by
  unfold startRing
  exact (withCru_plain _ s).trans (.ite (beginTransaction_plain _) (.refl _))

theorem commission_owned (s : State) : Owned s (commission s) := by
  have h : Owned s (startPresence (startRing (commissionBalance (commissionStore s)))) :=
    Owned.trans (t := { commissionStore s with
        bsq := { s.bsq with angles := some (angleTable s.cfs.geometry.n) } }) (.of_blocks rfl rfl rfl rfl)
      ((formSums_chain (C := fun _ => True) _).owned.trans
        ((startRing_plain _).owned.trans (.of_blocks rfl rfl rfl rfl)))
  unfold commission
  exact h.trans (.ite (seedAll_owned _) (.refl _))

theorem endMoves_plain (c : MoveCause) (s : State) : Plain s (endMoves c s) := by
  have hB : ∀ t : State, Plain t (match t.mvu.slotB with
      | none => t
      | some m =>
        if m.status = .pending then moveChanged .b (some { m with status := .cancelled }) t else t) := fun t => by
    split
    · exact .refl t
    · exact .ite (moveChanged_plain ..) (.refl t)
  have hA : Plain s (match s.mvu.slotA with
      | none => s
      | some m =>
        if m.occupiesA then moveChanged .a (some { m with status := .aborted, cause := some c }) (limitRemove .move s)
        else s) := by
    split
    · exact .refl s
    · exact .ite ((limitRemove_plain .move s).trans (moveChanged_plain ..)) (.refl s)
  exact hA.trans (hB _)

theorem decommission_owned (s : State) : Owned s (decommission s) := by
  unfold decommission
  have hm := (endMoves_plain .decommission { s with
    cfs := { s.cfs with device := .config }
    roc := s.roc.decommissioned }).owned.from (s := s) rfl rfl rfl rfl
  exact hm.trans ((holdRemove_owned _ (.inl rfl)).from rfl rfl rfl rfl)

/-! ### The answers -/

/-- s leads to t with the owners in agreement, if they were. -/
def Agrees (s t : State) : Prop := EntriesAgree s → EntriesAgree t

theorem Owned.agrees {s t : State} (h : Owned s t) : Agrees s t := h.agree

/-- An answer that changes the state keeps the agreement. -/
structure Answer.Keeps (a : Answer) (s : State) : Prop where
  agrees : ∀ pl t, a = .accepted pl t → Agrees s t

theorem keeps_refused (r : Reason) (n : Nat) (s : State) : (Answer.refused r n).Keeps s :=
  ⟨fun _ _ h => (Answer.not_refused h).elim⟩

theorem keeps_accepted {pl : List Byte} {s t : State} (h : Agrees s t) : (Answer.accepted pl t).Keeps s :=
  ⟨fun _ _ he => by cases he; exact h⟩

theorem keeps_same (pl : List Byte) (s : State) : (Answer.accepted pl s).Keeps s := keeps_accepted fun h => h

theorem keeps_ite {a b : Answer} {s : State} {c : Prop} [Decidable c] (h : a.Keeps s) (k : b.Keeps s) :
    Answer.Keeps (if c then a else b) s := by
  split
  · exact h
  · exact k

theorem submission_keeps (kind : MoveKind) (origin : MoveOrigin) (s : State) :
    (submissionAnswer (submitMove kind origin s)).Keeps s := by
  cases h : submitMove kind origin s with
  | refused r n => exact keeps_refused ..
  | accepted sl m t => exact keeps_accepted (submitMove_plain h).owned.agrees

theorem moveAnswer_keeps {a : MoveAnswer} {s : State} (h : ∀ t, a = .done t → Plain s t) : (moveAnswer a).Keeps s := by
  cases a with
  | refused r => exact keeps_refused ..
  | done t => exact keeps_accepted (h t rfl).owned.agrees

theorem groupAdd_keeps (id size mass acc : Nat) (s : State) : (answerGroupAdd id size mass acc s).Keeps s := by
  unfold answerGroupAdd
  split
  · exact keeps_refused ..
  · exact keeps_accepted ((withBsq_plain _ s).trans (addNotice_plain ..)).owned.agrees

theorem groupWithdraw_keeps (id : Nat) (s : State) : (answerGroupWithdraw id s).Keeps s := by
  unfold answerGroupWithdraw
  refine keeps_ite (keeps_refused ..) ?_
  split
  · exact keeps_refused ..
  · exact keeps_accepted ((withBsq_plain _ s).trans (.ite (notify_plain ..) (.refl _))).owned.agrees

theorem faultMask_keeps (b code mask : Nat) (s : State) : (answerFaultMask b code mask s).Keeps s := by
  unfold answerFaultMask
  split
  · exact keeps_refused ..
  · split
    · exact keeps_refused ..
    · split
      · exact keeps_refused ..
      · next hc =>
        obtain ⟨hb, hs⟩ := not_or.mp hc
        exact keeps_ite (keeps_refused ..) (keeps_accepted fun h =>
          setMask_agree (Decidable.not_not.mp hb) (Decidable.not_not.mp hs) h)

theorem profileWrite_keeps (profile : Nat) (values : List Nat) (s : State) :
    (answerProfileWrite profile values s).Keeps s := by
  have hput : ∀ id pr, (s.wmn.putProfile id pr).level = s.wmn.level := fun id pr => by cases id <;> rfl
  unfold answerProfileWrite
  split
  · exact keeps_refused ..
  · refine keeps_ite (keeps_refused ..) ?_
    split
    · exact keeps_refused ..
    · split
      · exact keeps_refused ..
      · exact keeps_accepted (Owned.agrees (.of_same (hput _ _) (fun _ => rfl) rfl fun _ _ _ _ _ => rfl))

theorem holdSet_keeps (p : Port) (reason level : Nat) (s : State) : (answerHoldSet p reason level s).Keeps s := by
  unfold answerHoldSet
  split
  · exact keeps_refused ..
  · next hr =>
    split
    iterate 2 exact keeps_refused ..
    dsimp only
    split
    · exact keeps_refused ..
    · next hc =>
      refine keeps_accepted (holdInsert_owned ?_ (.inr (.inr ⟨p, reason, rfl⟩))).agrees
      refine (holdInsert_event (stationHold_legal (Decidable.not_not.mp hr)) fun q hq hn => ?_).wmn
      have hqp := stationHold_of hq
      subst hqp
      simpa [State.hold_isSome, hn, Option.isNone_iff_eq_none, ← Option.not_isSome_iff_eq_none] using hc

/-- Every accepted request keeps the entries in agreement with their owners. -/
theorem answer_keeps (p : Port) (r : Request) (s : State) : (answer p r s).Keeps s := by
  cases r with
  | status => exact keeps_accepted (setPort_owned ..).agrees
  | cabinRead k => exact keeps_ite (keeps_same ..) (keeps_refused ..)
  | queueRead n => exact keeps_ite (keeps_same ..) (keeps_refused ..)
  | holdList | moveRead | windRead | inputsRead | trialRead => exact keeps_same ..
  | faultRead b =>
    simp only [answer, answerFaultRead]
    refine keeps_ite (keeps_same ..) ?_
    split
    · exact keeps_refused ..
    · exact keeps_same ..
  | configGet t i =>
    simp only [answer, answerConfigGet]
    split
    · exact keeps_refused ..
    · split
      · exact keeps_refused ..
      · exact keeps_same ..
  | configSet t i vs =>
    simp only [answer, answerConfigSet]
    split
    · exact keeps_refused ..
    · exact keeps_accepted configWrite_agree
  | commission =>
    simp only [answer, answerCommission]
    refine keeps_ite (keeps_refused ..) ?_
    split
    · exact keeps_refused ..
    · exact keeps_accepted (commission_owned s).agrees
  | decommission => exact keeps_ite (keeps_accepted (decommission_owned s).agrees) (keeps_refused ..)
  | restart => exact keeps_ite (keeps_accepted warmReset_agree) (keeps_refused ..)
  | run on =>
    exact keeps_ite (keeps_accepted (withRoc_owned _ s).agrees)
      (keeps_ite (keeps_ite (keeps_accepted (withRoc_owned _ s).agrees) (keeps_refused ..)) (keeps_refused ..))
  | holdSet a b => exact holdSet_keeps ..
  | holdRelease a =>
    exact keeps_ite (keeps_refused ..)
      (keeps_ite (keeps_accepted (holdRemove_owned s (.inr (.inr (.inr ⟨p, _, rfl⟩)))).agrees) (keeps_refused ..))
  | groupAdd a b c d => exact groupAdd_keeps ..
  | groupWithdraw a => exact groupWithdraw_keeps ..
  | doorRetry k =>
    exact keeps_ite (keeps_refused ..) (keeps_ite (keeps_accepted (queueCommand_plain ..).owned.agrees) (keeps_refused ..))
  | factorClear g =>
    simp only [answer, answerFactorClear]
    split
    · exact keeps_refused ..
    · exact keeps_accepted factorClear_agree
  | moveSubmit kind n =>
    exact keeps_ite (submission_keeps ..)
      (keeps_ite (keeps_ite (keeps_refused ..) (submission_keeps ..)) (keeps_refused ..))
  | moveCancel n => exact moveAnswer_keeps fun _ h => cancelMove_plain h
  | moveResume n => exact moveAnswer_keeps fun _ h => resumeMove_plain h
  | cabinService k d =>
    exact keeps_ite (keeps_refused ..)
      (keeps_ite (keeps_refused ..) (keeps_accepted (serviceChange_plain ..).owned.agrees))
  | windProfileWrite a vs => exact profileWrite_keeps ..
  | windProfileSelect a =>
    simp only [answer, answerProfileSelect]
    split
    · exact keeps_refused ..
    · exact keeps_accepted selectProfile_agree
  | faultAck b =>
    simp only [answer, answerFaultAck]
    split
    · exact keeps_refused ..
    · exact keeps_accepted acknowledge_agree
  | faultClear b =>
    simp only [answer, answerFaultClear]
    split
    · exact keeps_refused ..
    · exact keeps_ite (keeps_refused ..) (keeps_accepted (Owned.agrees (setBank_owned (by rfl) (by rfl))))
  | counterClear b =>
    simp only [answer, answerCounterClear]
    split
    · exact keeps_refused ..
    · exact keeps_accepted (Owned.agrees (setBank_owned (by rfl) (by rfl)))
  | faultMask a b c => exact faultMask_keeps ..
  | decelTrialStart =>
    exact keeps_ite (keeps_accepted (Owned.agrees (.of_blocks rfl rfl rfl rfl))) (keeps_refused ..)
  | clearTrip => exact keeps_ite (keeps_accepted (withRoc_owned _ s).agrees) (keeps_refused ..)

/-! ### The ports -/

theorem judgeFrame_keeps (p : Port) (f : Frame) (s : State) : (judgeFrame p f s).Keeps s := by
  unfold judgeFrame
  refine keeps_ite (keeps_refused ..) (keeps_ite (keeps_refused ..) ?_)
  split
  · exact keeps_refused ..
  · exact answer_keeps ..

theorem handleFrame_agrees (p : Port) (f : Frame) (s : State) : Agrees s (handleFrame p f s) := by
  intro h
  have hclaim := (setPort_owned p { s.port p with reply := some (refusalFrame f .unknownKind 0) } s).agree h
  unfold handleFrame
  refine (setPort_owned p _ _).agree ?_
  cases ha : judgeFrame p f (setPort p { s.port p with reply := some (refusalFrame f .unknownKind 0) } s) with
  | refused r n => exact hclaim
  | accepted pl t => exact (judgeFrame_keeps p f _).agrees pl t ha hclaim

theorem takeFrame_agrees (p : Port) (s : State) : Agrees s (takeFrame p s) := by
  intro h
  unfold takeFrame
  split
  · exact h
  · split
    · exact handleFrame_agrees p _ _ ((setPort_owned p _ s).agree h)
    · exact h

theorem settlePort_agrees (p : Port) (s : State) : Agrees s (settlePort p s) := fun h =>
  takeFrame_agrees p _ ((setPort_owned p _ _).agree (takeFrame_agrees p s h))

theorem presenceHeard_owned (p : Port) (s : State) : Owned s (presenceHeard p s) := by
  unfold presenceHeard
  exact (linkRemove_owned p s).trans (.ite (setPort_owned ..) (.refl _))

theorem frameArrives_agrees (p : Port) (f : Frame) (s : State) : Agrees s (frameArrives p f s) := by
  intro h
  unfold frameArrives
  split
  · exact settlePort_agrees p _ (((presenceHeard_owned p s).trans (setPort_owned p _ _)).agree h)
  · exact (report_owned ..).agree h

theorem discardFrame_owned (p : Port) (c : FaultCode) (s : State) : Owned s (discardFrame p c s) :=
  (setPort_owned p _ s).trans (report_owned ..)

theorem byteArrives_agrees (p : Port) (b : Byte) (stopBit : Bool) (s : State) : Agrees s (byteArrives p b stopBit s) := by
  intro h
  unfold byteArrives
  split
  · split
    · exact (setPort_owned ..).agree h
    · exact h
  · unfold frameByte
    split
    · split
      · exact (setPort_owned ..).agree h
      · exact (discardFrame_owned ..).agree h
      · exact frameArrives_agrees p _ _ ((setPort_owned ..).agree h)
      · exact (discardFrame_owned ..).agree h
    · exact (discardFrame_owned ..).agree h

theorem frameTimeout_owned (p : Port) (s : State) : Owned s (frameTimeout p s) := by
  unfold frameTimeout
  split
  · exact .refl s
  · exact discardFrame_owned ..

theorem transmitDone_agrees (p : Port) (s : State) : Agrees s (transmitDone p s) := by
  intro h
  unfold transmitDone
  split
  · exact settlePort_agrees p _ (((setPort_owned p _ s).trans (setPort_owned p _ _)).agree h)
  · exact h

theorem presenceExpires_owned (p : Port) (s : State) : Owned s (presenceExpires p s) := by
  unfold presenceExpires
  exact .ite (((setPort_owned p _ s).trans (linkInsert_owned p _ _)).trans (report_owned ..)) (.refl s)

theorem tick_owned (s : State) : Owned s (tick s) := by
  unfold tick
  split
  · exact .refl s
  · exact .of_same rfl (fun g => by cases g <;> rfl) rfl fun _ _ _ _ _ => rfl

end Sys2Proof.Machine

/-! Proofs: what every command keeps: the waiting commands, the sound blocks, the sound ports and the entries' agreement. -/

namespace Sys2Proof.Machine

/-! ### What a command keeps -/

/-- The four things that the meaning of every command keeps. -/
structure Works (e : State → State) : Prop where
  pending : ∀ s, (e s).pending = s.pending
  blocks : ∀ s, BlocksSound s → BlocksSound (e s)
  ports : ∀ s, PortsSound s → PortsSound (e s)
  agrees : ∀ s, Agrees s (e s)

theorem Effect.blocksSound {s t : State} (h : Effect s t) (k : BlocksSound s) : BlocksSound t := by
  obtain ⟨i, ht⟩ := (blocksSound_iff s).mp k
  exact (blocksSound_iff t).mpr ⟨h.inner i, h.trial ht⟩

theorem Taken.blocksSound {s t : State} (h : Taken s t) (k : BlocksSound s) : BlocksSound t := by
  obtain ⟨i, ht⟩ := (blocksSound_iff s).mp k
  exact (blocksSound_iff t).mpr ⟨h.inner i, h.trial ht⟩

theorem Works.of_effect {e : State → State} (h : ∀ s, Effect s (e s)) (a : ∀ s, Agrees s (e s)) : Works e :=
  ⟨fun s => (h s).pending, fun s => (h s).blocksSound, fun s => (h s).portsSound, a⟩

theorem Works.of_owned {e : State → State} (h : ∀ s, Effect s (e s)) (a : ∀ s, Owned s (e s)) : Works e :=
  .of_effect h fun s => (a s).agree

theorem Works.id : Works fun s => s := ⟨fun _ => rfl, fun _ h => h, fun _ h => h, fun _ h => h⟩

/-- A meaning that acts only on a condition of the state. -/
theorem Works.when {e : State → State} {c : State → Prop} [DecidablePred c] (h : Works e) :
    Works fun s => if c s then e s else s where
  pending s := by
    split
    · exact h.pending s
    · rfl
  blocks s k := by
    split
    · exact h.blocks s k
    · exact k
  ports s k := by
    split
    · exact h.ports s k
    · exact k
  agrees s k := by
    split
    · exact h.agrees s k
    · exact k

/-! ### A frame and the ports' events -/

theorem setPort_blocksSound {p : Port} {q : PortState} {s : State} (h : BlocksSound s) : BlocksSound (setPort p q s) := by
  obtain ⟨i, ht⟩ := (blocksSound_iff s).mp h
  exact (blocksSound_iff _).mpr ⟨i.same rfl rfl rfl rfl rfl rfl, ht⟩

theorem answer_blocksSound {p : Port} {r : Request} {s t : State} {pl : List Byte} (ha : answer p r s = .accepted pl t)
    (h : BlocksSound s) : BlocksSound t := by
  by_cases hr : r = .restart
  · subst hr
    obtain ⟨i, ht⟩ := (blocksSound_iff s).mp h
    simp only [answer, answerRestart] at ha
    split at ha
    · next hp =>
      obtain rfl := Answer.accepted_state ha
      exact (blocksSound_iff _).mpr ⟨warmReset_inner i, warmReset_trial i ht hp⟩
    · exact (Answer.not_refused ha).elim
  · exact (answer_taken ha hr).blocksSound h

/-- An accepted frame is an accepted answer. -/
theorem judgeFrame_answer {p : Port} {f : Frame} {s t : State} {pl : List Byte} (h : judgeFrame p f s = .accepted pl t) :
    ∃ r, answer p r s = .accepted pl t := by
  unfold judgeFrame at h
  split at h
  · exact (Answer.not_refused h).elim
  · split at h
    · exact (Answer.not_refused h).elim
    · split at h
      · exact (Answer.not_refused h).elim
      · exact ⟨_, h⟩

theorem handleFrame_blocksSound {p : Port} {f : Frame} {s : State} (h : BlocksSound s) :
    BlocksSound (handleFrame p f s) := by
  unfold handleFrame
  refine setPort_blocksSound ?_
  cases ha : judgeFrame p f (setPort p { s.port p with reply := some (refusalFrame f .unknownKind 0) } s) with
  | refused r n => exact setPort_blocksSound h
  | accepted pl t =>
    obtain ⟨r, hr⟩ := judgeFrame_answer ha
    exact answer_blocksSound hr (setPort_blocksSound h)

theorem takeFrame_blocksSound {p : Port} {s : State} (h : BlocksSound s) : BlocksSound (takeFrame p s) := by
  unfold takeFrame
  split
  · exact h
  · split
    · exact handleFrame_blocksSound (setPort_blocksSound h)
    · exact h

theorem settlePort_blocksSound {p : Port} {s : State} (h : BlocksSound s) : BlocksSound (settlePort p s) :=
  takeFrame_blocksSound (setPort_blocksSound (takeFrame_blocksSound h))

theorem frameArrives_works (p : Port) (f : Frame) : Works (frameArrives p f) where
  pending s := by
    unfold frameArrives
    split
    · exact settlePort_pending.trans (presenceHeard_taken p s).pending
    · exact (report_event ..).pending
  blocks s h := by
    unfold frameArrives
    split
    · exact settlePort_blocksSound (setPort_blocksSound ((presenceHeard_taken p s).blocksSound h))
    · exact (report_effect ..).blocksSound h
  ports _ := frameArrives_sound
  agrees := frameArrives_agrees p f

theorem setReceiver_taken (p : Port) (r : Receiver) (s : State) : Taken s (setReceiver p r s) :=
  setPort_taken rfl rfl rfl rfl

theorem discardFrame_taken (p : Port) (c : FaultCode) (s : State) : Taken s (discardFrame p c s) :=
  (setReceiver_taken p _ s).trans (report_event ..).taken

/-- A taken update of the state keeps what a command keeps. -/
theorem Works.of_taken {e : State → State} (h : ∀ s, Taken s (e s)) (a : ∀ s, Owned s (e s)) : Works e :=
  ⟨fun s => (h s).pending, fun s => (h s).blocksSound, fun s => (h s).portsSound, fun s => (a s).agree⟩

theorem setReceiver_works (p : Port) (r : Receiver) : Works (setReceiver p r) :=
  .of_taken (setReceiver_taken p r) fun s => setPort_owned p _ s

theorem discardFrame_works (p : Port) (c : FaultCode) : Works (discardFrame p c) :=
  .of_taken (discardFrame_taken p c) (discardFrame_owned p c)

theorem Works.comp {e f : State → State} (h : Works e) (k : Works f) : Works fun s => f (e s) :=
  ⟨fun s => (k.pending _).trans (h.pending s), fun s i => k.blocks _ (h.blocks s i),
    fun s i => k.ports _ (h.ports s i), fun s i => k.agrees _ (h.agrees s i)⟩

/-- The meaning of a byte, by what the bytes so far come to (R173). -/
theorem frameByte_works (p : Port) (bytes : List Byte) (elapsed : Nat) (b : Byte) (stopBit : Bool) :
    Works (frameByte p bytes elapsed b stopBit) := by
  unfold frameByte
  cases stopBit with
  | false => exact discardFrame_works p .crcError
  | true =>
    simp only [if_true]
    cases gather (bytes ++ [b]) with
    | more => exact setReceiver_works p _
    | badLength => exact discardFrame_works p .crcError
    | done f ok =>
      cases ok with
      | true => exact (setReceiver_works p .hunting).comp (frameArrives_works p f)
      | false => exact discardFrame_works p .crcError

/-- A meaning chosen by the state keeps what each choice keeps. -/
theorem Works.choice {e : State → State} (h : ∀ s, ∃ f, Works f ∧ e s = f s) : Works e where
  pending s := by obtain ⟨f, hf, he⟩ := h s; rw [he]; exact hf.pending s
  blocks s i := by obtain ⟨f, hf, he⟩ := h s; rw [he]; exact hf.blocks s i
  ports s i := by obtain ⟨f, hf, he⟩ := h s; rw [he]; exact hf.ports s i
  agrees s i := by obtain ⟨f, hf, he⟩ := h s; rw [he]; exact hf.agrees s i

theorem byteArrives_works (p : Port) (b : Byte) (stopBit : Bool) : Works (byteArrives p b stopBit) := by
  refine .choice fun s => ?_
  unfold byteArrives
  cases (s.port p).receiver with
  | hunting =>
    dsimp only
    split
    · exact ⟨_, setReceiver_works p _, rfl⟩
    · exact ⟨_, .id, rfl⟩
  | inFrame bytes elapsed => exact ⟨_, frameByte_works p bytes elapsed b stopBit, rfl⟩

theorem frameTimeout_works (p : Port) : Works (frameTimeout p) := by
  refine .choice fun s => ?_
  unfold frameTimeout
  cases (s.port p).receiver with
  | hunting => exact ⟨_, .id, rfl⟩
  | inFrame bytes elapsed => exact ⟨_, discardFrame_works p _, rfl⟩

theorem transmitDone_works (p : Port) : Works (transmitDone p) where
  pending s := by
    unfold transmitDone
    split
    · exact settlePort_pending
    · rfl
  blocks s h := by
    unfold transmitDone
    split
    · exact settlePort_blocksSound (setPort_blocksSound (setPort_blocksSound h))
    · exact h
  ports _ := transmitDone_sound
  agrees := transmitDone_agrees p

theorem presenceExpires_taken (p : Port) (s : State) : Taken s (presenceExpires p s) := by
  unfold presenceExpires
  refine .ite ((Taken.trans (setPort_taken ?_ ?_ ?_ ?_) (holdInsert_link p _ _).taken).trans
    (report_event ..).taken) (.refl s) <;> rfl

theorem presenceExpires_works (p : Port) : Works (presenceExpires p) :=
  .of_taken (presenceExpires_taken p) (presenceExpires_owned p)

theorem clockTick_taken (s : State) : Taken s (clockTick s) := Aside.taken {}

theorem clockTick_works : Works clockTick := .of_taken clockTick_taken fun _ => .of_blocks rfl rfl rfl rfl

/-! ### The resets -/

theorem coldReset_blocksSound (s : State) : BlocksSound (coldReset s) where
  holds := hluCold_sound
  wheel :=
    { park := by rintro ⟨⟩
      config := fun _ => rfl
      still := fun _ => rfl
      reference := driveWord_zero.symm
      trial := by rintro ⟨⟩
      cruise := Nat.zero_le _
      decel := (by decide : (20 : Nat) ≤ 40 ∧ (40 : Nat) ≤ 40) }
  points := ⟨List.nodup_nil, Nat.zero_le _⟩
  moves := ⟨by rintro ⟨⟩, by rintro ⟨⟩⟩
  groups := ⟨Nat.zero_le _, reset_blocksSound.groups.distinct⟩

theorem coldReset_portsSound (s : State) : PortsSound (coldReset s) := fun p => by
  cases p <;> exact ⟨fun _ => ⟨rfl, rfl⟩, fun _ => rfl, Nat.zero_le _, Nat.zero_le _⟩

theorem coldReset_works : Works coldReset :=
  ⟨fun _ => rfl, fun s _ => coldReset_blocksSound s, fun s _ => coldReset_portsSound s, fun s _ => coldReset_agree s⟩

/-- The state at the end of a cold reset before the hold set is formed: counter sample, wind level, brake (R134). -/
def resetEndBegun (s : State) : State :=
  brakeWaitStarts { s with
    time := { resetHeld := false, control := 0, sample := 0, second := 0 }
    ptr := { s.ptr with sample := s.ptr.counter }
    wmn := s.wmn.resetEnd }

theorem coldResetEnd_held {s : State} (h : s.time.resetHeld = true) :
    coldResetEnd s = inputsResetEnd (windHandOver none .reset (resetEndBegun s)) := by
  rw [coldResetEnd, if_pos h]
  rfl

theorem coldResetEnd_running {s : State} (h : s.time.resetHeld = false) : coldResetEnd s = s := by
  rw [coldResetEnd, h]
  rfl

theorem resetEndBegun_blocksSound {s : State} (h : BlocksSound s) : BlocksSound (resetEndBegun s) := by
  obtain ⟨i, ht⟩ := (blocksSound_iff s).mp h
  refine (brakeWaitStarts_light _).effect.blocksSound ((blocksSound_iff _).mpr ⟨?_, ht⟩)
  exact i.same rfl rfl rfl rfl rfl rfl

theorem resetEnd_effect (s : State) :
    Effect (resetEndBegun s) (inputsResetEnd (windHandOver none .reset (resetEndBegun s))) :=
  (windHandOver_event ..).effect.trans (inputsResetEnd_effect _)

theorem coldResetEnd_works : Works coldResetEnd where
  pending s := by
    cases h : s.time.resetHeld with
    | true => rw [coldResetEnd_held h]; exact (resetEnd_effect s).pending
    | false => rw [coldResetEnd_running h]
  blocks s i := by
    cases h : s.time.resetHeld with
    | true => rw [coldResetEnd_held h]; exact (resetEnd_effect s).blocksSound (resetEndBegun_blocksSound i)
    | false => rwa [coldResetEnd_running h]
  ports s i := by
    cases h : s.time.resetHeld with
    | true => rw [coldResetEnd_held h]; exact (resetEnd_effect s).portsSound i
    | false => rwa [coldResetEnd_running h]
  agrees _ := coldResetEnd_agree

/-! ### Every command -/

theorem Works.unlessReset {e : State → State} (h : Works e) : Works (unlessReset e) :=
  .choice fun s => by
    unfold Machine.unlessReset
    split
    · exact ⟨_, .id, rfl⟩
    · exact ⟨e, h, rfl⟩

theorem encoderCount_works (n : Int) :
    Works fun s => { s with ptr := { s.ptr with counter := s.ptr.counter + BitVec.ofInt 32 n } } :=
  .of_owned (fun _ => Light.effect {}) fun _ => .of_blocks rfl rfl rfl rfl

theorem setInput_works (i : Nat) (f : Input → Input) : Works fun s => setInput i (f (s.input i)) s :=
  .of_owned (fun _ => Light.effect {}) fun s => withInputs_owned _ s

theorem inputRawChange_works (i : Nat) (v : Bool) :
    Works fun s => if s.time.resetHeld then setInput i { s.input i with raw := v } s else inputRaw i v s :=
  .choice fun s => by
    dsimp only
    split
    · exact ⟨_, setInput_works i fun x => { x with raw := v }, rfl⟩
    · exact ⟨_, setInput_works i fun x => x.rawChanged v, rfl⟩

theorem lineChanges_works (ln : FeedbackLine) (b : Bool) : Works (lineChanges ln b) :=
  .of_owned (lineChanges_effect ln b) fun s => withRoc_owned _ s

theorem lineArrival_works (ln : FeedbackLine) : Works (lineArrival ln) :=
  .of_owned (lineArrival_effect ln) fun s => withRoc_owned _ s

/-- A command that acts while a reset is held. -/
theorem exec_acting {c : Instr} (h : actsUnderReset c = true) : ∃ e, Works e ∧ ∀ s, exec c s = .next (e s) := by
  cases c with
  | coldReset => exact ⟨_, coldReset_works, fun _ => rfl⟩
  | coldResetEnd => exact ⟨_, coldResetEnd_works, fun _ => rfl⟩
  | encoderCount n => exact ⟨_, encoderCount_works n, fun _ => rfl⟩
  | brakeReleasedArrival => exact ⟨_, lineArrival_works .brakeReleased, fun _ => rfl⟩
  | brakeSetArrival => exact ⟨_, lineArrival_works .brakeSet, fun _ => rfl⟩
  | driveReadyChange ln b => exact ⟨_, lineChanges_works ln b, fun _ => rfl⟩
  | inputRawChange i v => exact ⟨_, inputRawChange_works i.val v, fun _ => rfl⟩
  | _ => cases h

theorem controlUpdate_works : Works controlUpdate := .of_owned controlUpdate_effect controlUpdate_owned

theorem windSample_works : Works windSample := .of_effect windSample_effect fun _ => windSample_agree

/-- A command that a held reset stops: a request, which is the arrival of its frame, or an event. -/
theorem exec_stopped {c : Instr} (h : actsUnderReset c = false) :
    ∃ e, Works e ∧ ∀ s, exec c s = .next (unlessReset e s) := by
  cases c with
  | coldReset | coldResetEnd | encoderCount | brakeReleasedArrival | brakeSetArrival | driveReadyChange
  | inputRawChange => cases h
  | controlUpdate => exact ⟨_, controlUpdate_works, fun _ => rfl⟩
  | indexMark => exact ⟨_, .of_owned latchMark_effect fun _ => .of_blocks rfl rfl rfl rfl, fun _ => rfl⟩
  | standstill => exact ⟨_, controlUpdate_works.when, fun _ => rfl⟩
  | trackingError => exact ⟨_, controlUpdate_works.when, fun _ => rfl⟩
  | trackingGraceExpiry => exact ⟨_, .of_owned graceExpires_effect fun s => withRoc_owned _ s, fun _ => rfl⟩
  | brakeReleaseTimeout => exact ⟨_, .of_owned releaseTimeout_effect releaseTimeout_owned, fun _ => rfl⟩
  | brakeSetTimeout => exact ⟨_, .of_owned brakeSetTimeout_effect brakeSetTimeout_owned, fun _ => rfl⟩
  | standTimerExpiry => exact ⟨_, .of_owned standExpires_effect standExpires_owned, fun _ => rfl⟩
  | ringRequestSent => exact ⟨_, .of_owned requestSent_effect fun s => (requestSent_plain s).owned, fun _ => rfl⟩
  | ringReplyReceived b =>
    exact ⟨_, .of_owned (replyArrives_effect b) fun s => (replyArrives_chain b s).owned, fun _ => rfl⟩
  | nodeTimeout => exact ⟨_, .of_owned nodeTimeout_effect fun s => (nodeTimeout_chain s).owned, fun _ => rfl⟩
  | windSample => exact ⟨_, windSample_works, fun _ => rfl⟩
  | channelImplausible ch => exact ⟨_, windSample_works.when, fun _ => rfl⟩
  | channelRecovery ch => exact ⟨_, windSample_works.when, fun _ => rfl⟩
  | warmUpEnd => exact ⟨_, windSample_works.when, fun _ => rfl⟩
  | calmPeriodExpiry => exact ⟨_, windSample_works.when, fun _ => rfl⟩
  | inputChange i => exact ⟨_, .of_effect (inputChange_effect i.val) fun _ => inputChange_agree, fun _ => rfl⟩
  | presenceTimerExpiry p => exact ⟨_, presenceExpires_works p, fun _ => rfl⟩
  | linkByteReceived p b stop => exact ⟨_, byteArrives_works p b stop, fun _ => rfl⟩
  | frameTimeout p => exact ⟨_, frameTimeout_works p, fun _ => rfl⟩
  | transmitDone p => exact ⟨_, transmitDone_works p, fun _ => rfl⟩
  | serviceClockTick => exact ⟨_, clockTick_works, fun _ => rfl⟩
  | anemometerPulse ch => exact ⟨_, .of_owned (pulse_effect ch) (pulse_owned ch), fun _ => rfl⟩
  | _ => exact ⟨_, frameArrives_works .., fun _ => rfl⟩

/-- Every command has a meaning that keeps the waiting commands and the invariants. -/
theorem exec_works (c : Instr) : ∃ e, Works e ∧ ∀ s, exec c s = .next (e s) := by
  cases h : actsUnderReset c with
  | true => exact exec_acting h
  | false =>
    obtain ⟨e, he, hx⟩ := exec_stopped h
    exact ⟨_, he.unlessReset, hx⟩

/-- Settles O3, from the meanings of the commands that a held reset stops and of those that it does not. -/
theorem everyCommandCompletes : Obligations.EveryCommandCompletes := by
  intro c s
  refine ⟨?_, fun hheld hstop => ?_⟩
  · obtain ⟨e, he, hx⟩ := exec_works c
    exact ⟨e s, hx s, he.pending s⟩
  · obtain ⟨e, -, hx⟩ := exec_stopped hstop
    rw [hx, unlessReset, if_pos hheld]

/-! ### One millisecond -/

theorem advance_lkp_ports (s : State) (p : Port) : (advanceTimers s).port p = (s.port p).advanced := by
  cases p <;> rfl

theorem tick_portsSound {s : State} (h : PortsSound s) : PortsSound (tick s) := by
  unfold tick
  split
  · exact h
  · intro p
    show PortSound ((advanceTimers s).port p)
    rw [advance_lkp_ports]
    exact PortSound.frames (q := s.port p) rfl rfl rfl rfl (h p)

theorem tick_blocksSound {s : State} (h : BlocksSound s) : BlocksSound (tick s) := by
  unfold tick
  split
  · exact h
  · exact
      { holds := h.holds
        wheel := WheelSound.congr (s := s) rfl rfl rfl rfl rfl h.wheel
        points := h.points
        moves := ⟨h.moves.slots, h.moves.trial⟩
        groups := GroupsSound.congr (s := s) rfl rfl h.groups }

/-- A step is a millisecond, or the meaning of the front command on the queue's rest. -/
theorem step_cases {s t : State} (h : step s = .next t) :
    (s.pending = [] ∧ t = tick s) ∨
      ∃ c rest e, s.pending = c :: rest ∧ Works e ∧ t = e { s with pending := rest } := by
  unfold step at h
  cases hp : s.pending with
  | nil =>
    rw [hp] at h
    cases h
    exact .inl ⟨rfl, rfl⟩
  | cons c rest =>
    rw [hp] at h
    obtain ⟨e, he, hx⟩ := exec_works c
    exact .inr ⟨c, rest, e, rfl, he, by
      have := (hx { s with pending := rest }).symm.trans h
      cases this
      rfl⟩

/-- The waiting commands are no part of a sound block. -/
theorem withPending_blocksSound {s : State} (l : List Instr) (h : BlocksSound s) : BlocksSound { s with pending := l } :=
  ⟨h.holds, WheelSound.congr (s := s) rfl rfl rfl rfl rfl h.wheel, h.points, ⟨h.moves.slots, h.moves.trial⟩,
    GroupsSound.congr (s := s) rfl rfl h.groups⟩

theorem withPending_agrees (s : State) (l : List Instr) : Agrees s { s with pending := l } :=
  fun ⟨w, i, b, m⟩ => ⟨w, i, b, m⟩

/-- Settles O4: a step is a millisecond or a command, and both keep the blocks sound and the entries with their owners. -/
theorem stepKeepsBlocksSound : Obligations.StepKeepsBlocksSound := by
  refine ⟨fun s t hs h => ?_, fun s t _ hs h => ?_⟩
  · obtain ⟨-, rfl⟩ | ⟨c, rest, e, -, he, rfl⟩ := step_cases h
    · exact tick_blocksSound hs
    · exact he.blocks _ (withPending_blocksSound rest hs)
  · obtain ⟨-, rfl⟩ | ⟨c, rest, e, -, he, rfl⟩ := step_cases h
    · exact (tick_owned s).agree hs
    · exact he.agrees _ (withPending_agrees s rest hs)

/-- Settles O5: a step is a millisecond or a command, and both keep the ports sound. -/
theorem stepKeepsPortsSound : Obligations.StepKeepsPortsSound := by
  intro s t hs h
  obtain ⟨-, rfl⟩ | ⟨c, rest, e, -, he, rfl⟩ := step_cases h
  · exact tick_portsSound hs
  · exact he.ports _ hs

end Sys2Proof.Machine

/-! Proofs: one millisecond of the part's clock (log 1). -/

namespace Sys2Proof.Machine

/-! ### What is due -/

theorem mem_due {b : Bool} {c d : Instr} : c ∈ due b d ↔ b = true ∧ c = d := by
  cases b <;> simp [due]

theorem reached_iff {period : Nat} {t : Option Nat} : reached period t = true ↔ ∃ e, t = some e ∧ period ≤ e := by
  cases t <;> simp [reached]

theorem reached_advance {period : Nat} {t : Option Nat} :
    reached period (advance t) = true ↔ ∃ e, t = some e ∧ period ≤ e + 1 := by
  cases t <;> simp [reached, advance]

theorem cycle_eq (period e : Nat) : cycle period e = if e + 1 < period then e + 1 else 0 := by
  unfold cycle
  split <;> split <;> omega

theorem cycle_zero {period e : Nat} : (cycle period e == 0) = true ↔ period ≤ e + 1 := by
  rw [beq_iff_eq, cycle]
  split <;> omega

theorem mem_inputsDue {s : State} {c : Instr} :
    c ∈ inputsDue s ↔ ∃ i : Fin 16, reached filterPeriod (s.input i.val).timer = true ∧ c = .inputChange i := by
  simp [inputsDue, mem_due]

theorem mem_portDue {s : State} {p : Port} {c : Instr} :
    c ∈ portDue s p ↔ ((s.port p).presenceReached = true ∧ c = .presenceTimerExpiry p) ∨
      (reached framePeriod (s.port p).receiver.elapsed = true ∧ c = .frameTimeout p) := by
  simp [portDue, mem_due]

/-- What is in the queue after a millisecond, timer by timer. -/
theorem mem_expiries {s : State} {c : Instr} :
    c ∈ expiries s ↔
      ((s.time.second == 0) = true ∧ c = .serviceClockTick) ∨
      (reached releasePeriod s.roc.releaseTimer = true ∧ c = .brakeReleaseTimeout) ∨
      (reached brakeSetPeriod s.roc.brakeSetTimer = true ∧ c = .brakeSetTimeout) ∨
      (reached (s.cfs.speeds.tStand * 1000) s.roc.standTimer = true ∧ c = .standTimerExpiry) ∨
      (reached gracePeriod s.roc.grace = true ∧ c = .trackingGraceExpiry) ∨
      (reached s.cfs.ring.tNode s.cru.waited = true ∧ c = .nodeTimeout) ∨
      (∃ i : Fin 16, reached filterPeriod (s.input i.val).timer = true ∧ c = .inputChange i) ∨
      (∃ p : Port, ((s.port p).presenceReached = true ∧ c = .presenceTimerExpiry p) ∨
        (reached framePeriod (s.port p).receiver.elapsed = true ∧ c = .frameTimeout p)) ∨
      ((s.time.sample == 0) = true ∧ c = .windSample) ∨
      ((s.time.control == 0) = true ∧ c = .controlUpdate) := by
  have hport : (∃ p : Port, ((s.port p).presenceReached = true ∧ c = .presenceTimerExpiry p) ∨
        (reached framePeriod (s.port p).receiver.elapsed = true ∧ c = .frameTimeout p)) ↔
      c ∈ portDue s .p1 ∨ c ∈ portDue s .p2 := by
    simp only [mem_portDue]
    exact ⟨fun | ⟨.p1, h⟩ => .inl h | ⟨.p2, h⟩ => .inr h, fun h => h.elim (⟨_, ·⟩) (⟨_, ·⟩)⟩
  rw [hport]
  simp only [expiries, List.mem_append, mem_due, mem_inputsDue, or_assoc]

/-! ### What goes on -/

theorem advanceTimers_input (s : State) (i : Nat) :
    (advanceTimers s).input i = { s.input i with timer := advance (s.input i).timer } := by
  simp only [State.input, advanceTimers, List.getD, List.getElem?_map]
  cases s.pim.inputs[i]? <;> rfl

theorem waited_advanced (c : Cru) : c.advanced.waited = advance c.waited := by
  unfold Cru.advanced Cru.waited
  cases c.flight <;> rfl

theorem waited_iff {c : Cru} {n : Nat} :
    (∃ e, c.waited = some e ∧ n ≤ e + 1) ↔ ∃ x e, c.flight = some x ∧ x.wait = some e ∧ n ≤ e + 1 := by
  unfold Cru.waited
  cases c.flight <;> simp

theorem presenceReached_advanced {q : PortState} :
    q.advanced.presenceReached = true ↔ ∃ x, q.presence = some x ∧ x.time * 1000 ≤ x.elapsed + 1 := by
  unfold PortState.presenceReached PortState.advanced PresenceTimer.advanced
  cases q.presence <;> simp

theorem elapsed_advanced (r : Receiver) : r.advanced.elapsed = advance r.elapsed := by cases r <;> rfl

theorem elapsed_iff {r : Receiver} {n : Nat} :
    (∃ e, r.elapsed = some e ∧ n ≤ e + 1) ↔ ∃ bytes e, r = .inFrame bytes e ∧ n ≤ e + 1 := by
  cases r with
  | hunting => exact ⟨nofun, nofun⟩
  | inFrame bytes e =>
    constructor
    · rintro ⟨_, ⟨⟩, h⟩
      exact ⟨_, _, rfl, h⟩
    · rintro ⟨_, _, ⟨⟩, h⟩
      exact ⟨_, rfl, h⟩

/-- A millisecond of an empty queue, while no reset is held. -/
theorem step_tick {s : State} (hp : s.pending = []) (h : s.time.resetHeld = false) :
    step s = .next { advanceTimers s with pending := expiries (advanceTimers s) } := by
  have ht : tick s = { advanceTimers s with pending := s.pending ++ expiries (advanceTimers s) } := by
    rw [tick, h]
    rfl
  simp only [step, hp] at ht ⊢
  rw [ht]
  rfl

/-- What is due after a millisecond, in terms of the state before it. -/
theorem mem_tick {s : State} {c : Instr} :
    c ∈ expiries (advanceTimers s) ↔
      (1000 ≤ s.time.second + 1 ∧ c = .serviceClockTick) ∨
      ((∃ e, s.roc.releaseTimer = some e ∧ 3000 ≤ e + 1) ∧ c = .brakeReleaseTimeout) ∨
      ((∃ e, s.roc.brakeSetTimer = some e ∧ 2000 ≤ e + 1) ∧ c = .brakeSetTimeout) ∨
      ((∃ e, s.roc.standTimer = some e ∧ s.cfs.speeds.tStand * 1000 ≤ e + 1) ∧ c = .standTimerExpiry) ∨
      ((∃ e, s.roc.grace = some e ∧ 2000 ≤ e + 1) ∧ c = .trackingGraceExpiry) ∨
      ((∃ x e, s.cru.flight = some x ∧ x.wait = some e ∧ s.cfs.ring.tNode ≤ e + 1) ∧ c = .nodeTimeout) ∨
      (∃ i : Fin 16, (∃ e, (s.input i.val).timer = some e ∧ 20 ≤ e + 1) ∧ c = .inputChange i) ∨
      (∃ p : Port,
        ((∃ x, (s.port p).presence = some x ∧ x.time * 1000 ≤ x.elapsed + 1) ∧ c = .presenceTimerExpiry p) ∨
        ((∃ bytes e, (s.port p).receiver = .inFrame bytes e ∧ 30 ≤ e + 1) ∧ c = .frameTimeout p)) ∨
      (250 ≤ s.time.sample + 1 ∧ c = .windSample) ∨
      (50 ≤ s.time.control + 1 ∧ c = .controlUpdate) := by
  have hwait : reached s.cfs.ring.tNode (advanceTimers s).cru.waited = true ↔
      ∃ x e, s.cru.flight = some x ∧ x.wait = some e ∧ s.cfs.ring.tNode ≤ e + 1 := by
    rw [show (advanceTimers s).cru.waited = advance s.cru.waited from waited_advanced s.cru, reached_advance, waited_iff]
  have hinput : ∀ i : Fin 16, reached filterPeriod ((advanceTimers s).input i.val).timer = true ↔
      ∃ e, (s.input i.val).timer = some e ∧ 20 ≤ e + 1 := fun i => by rw [advanceTimers_input, reached_advance]
  have hpresence : ∀ p, ((advanceTimers s).port p).presenceReached = true ↔
      ∃ x, (s.port p).presence = some x ∧ x.time * 1000 ≤ x.elapsed + 1 := fun p => by
    rw [advance_lkp_ports, presenceReached_advanced]
  have hframe : ∀ p, reached framePeriod ((advanceTimers s).port p).receiver.elapsed = true ↔
      ∃ bytes e, (s.port p).receiver = .inFrame bytes e ∧ 30 ≤ e + 1 := fun p => by
    rw [advance_lkp_ports, PortState.advanced, elapsed_advanced, reached_advance, elapsed_iff]
  rw [mem_expiries]
  exact or_congr (and_congr_left' cycle_zero) <| or_congr (and_congr_left' reached_advance) <|
    or_congr (and_congr_left' reached_advance) <| or_congr (and_congr_left' reached_advance) <|
    or_congr (and_congr_left' reached_advance) <| or_congr (and_congr_left' hwait) <|
    or_congr (exists_congr fun i => and_congr_left' (hinput i)) <|
    or_congr (exists_congr fun p => or_congr (and_congr_left' (hpresence p)) (and_congr_left' (hframe p))) <|
    or_congr (and_congr_left' cycle_zero) (and_congr_left' cycle_zero)

/-- Settles O2: a step of an empty queue is the tick, whose expiries are read off timer by timer. -/
theorem emptyQueueTicks : Obligations.EmptyQueueTicks := by
  intro s hp
  refine ⟨fun h => ?_, fun h => ⟨_, step_tick hp h, ?_⟩⟩
  · simp only [step, hp, tick, h, if_true]
  · refine ⟨cycle_eq .., cycle_eq .., cycle_eq .., ?_, ?_, ?_, rfl, rfl, rfl, rfl, ?_, ?_, ?_, ?_, rfl, ?_,
      fun i => ⟨advanceTimers_input s i.val, ?_⟩, fun p => ?_, rfl, rfl, rfl, rfl, rfl, rfl, rfl, rfl, rfl⟩
    iterate 9 exact mem_tick.trans (by simp)
    have hport : ∀ l, ({ advanceTimers s with pending := l } : State).port p = (s.port p).advanced :=
      fun l => advance_lkp_ports s p
    rw [hport]
    refine ⟨rfl, rfl, rfl, fun hr => ?_, fun bytes e hr => ?_, mem_tick.trans (by simp), mem_tick.trans (by simp)⟩
    · simp only [PortState.advanced, hr, Receiver.advanced]
    · simp only [PortState.advanced, hr, Receiver.advanced]

end Sys2Proof.Machine

/-! Proofs: the frames of requests (R172, R175, R189). -/

namespace Sys2Proof.Machine

/-! ### Fields read back -/

theorem half_bytes (h : Half) : half (h.extractLsb' 8 8) (h.extractLsb' 0 8) = h := by
  apply BitVec.eq_of_getLsbD_eq
  intro i hi
  simp only [half, BitVec.getLsbD_append, BitVec.getLsbD_extractLsb']
  split
  · simp [*]
  · have : i - 8 < 8 := by omega
    simp [this, show 8 + (i - 8) = i by omega]

theorem quad_bytes (q : Quad) :
    quad (q.extractLsb' 24 8) (q.extractLsb' 16 8) (q.extractLsb' 8 8) (q.extractLsb' 0 8) = q := by
  apply BitVec.eq_of_getLsbD_eq
  intro i hi
  simp only [quad, BitVec.getLsbD_append, BitVec.getLsbD_extractLsb']
  split
  · simp [*]
  · split
    · simp [*, show 8 + (i - 8) = i by omega]
    · split
      · simp [*, show 16 + (i - 8 - 8) = i by omega]
      · have : i - 8 - 8 - 8 < 8 := by omega
        simp [this, show 24 + (i - 8 - 8 - 8) = i by omega]

theorem readValueList_bytes (vs : List (Byte × Quad)) : readValueList (valueListBytes vs) = some vs := by
  induction vs with
  | nil => rfl
  | cons v vs ih =>
    obtain ⟨n, q⟩ := v
    simp only [valueListBytes, quadBytes, List.cons_append, List.nil_append, readValueList, ih, quad_bytes]

theorem readHalfList_bytes (vs : List Half) : readHalfList (halfListBytes vs) = some vs := by
  induction vs with
  | nil => rfl
  | cons v vs ih =>
    simp only [halfListBytes, halfBytes, List.cons_append, List.nil_append, readHalfList, ih, half_bytes]

theorem length_valueListBytes (vs : List (Byte × Quad)) : (valueListBytes vs).length = 5 * vs.length := by
  induction vs with
  | nil => rfl
  | cons v vs ih => simp only [valueListBytes, quadBytes, List.length_cons, List.length_append, ih, List.length_nil]; omega

theorem length_halfListBytes (vs : List Half) : (halfListBytes vs).length = 2 * vs.length := by
  induction vs with
  | nil => rfl
  | cons v vs ih => simp only [halfListBytes, halfBytes, List.length_cons, List.length_append, ih, List.length_nil]; omega

/-! ### Requests read back -/

theorem readHalf_bytes (f : Half → Request) (h : Half) : readHalf f (halfBytes h) = some (f h) := by
  simp only [halfBytes, readHalf, half_bytes]

theorem readConfigSet_bytes {t i : Byte} {vs : List (Byte × Quad)} (h : valueListOk vs = true) :
    readConfigSet (t :: i :: valueListBytes vs) = some (.configSet t i vs) := by
  simp only [readConfigSet, readValueList_bytes, if_pos (of_decide_eq_true h)]

theorem readProfileWrite_bytes {p : Byte} {vs : List Half} (h : profileValuesOk vs = true) :
    readProfileWrite (p :: halfListBytes vs) = some (.windProfileWrite p vs) := by
  simp only [readProfileWrite, readHalfList_bytes, if_pos (eq_of_beq h)]

/-- A request's payload reads back under its KIND. -/
theorem readRequest_payload {r : Request} (h : r.wellFormed = true) :
    readRequest (requestKind r) (requestPayload r) = some r := by
  cases r with
  | configSet t i vs => exact readConfigSet_bytes h
  | windProfileWrite p vs => exact readProfileWrite_bytes h
  | groupAdd id size mass acc =>
    show some (Request.groupAdd (half _ _) size (half _ _) acc) = _
    rw [half_bytes, half_bytes]
  | groupWithdraw id => exact readHalf_bytes ..
  | moveCancel n => exact readHalf_bytes ..
  | moveResume n => exact readHalf_bytes ..
  | _ => rfl

theorem length_requestPayload {r : Request} (h : r.wellFormed = true) : (requestPayload r).length ≤ 200 := by
  cases r with
  | configSet t i vs =>
    obtain ⟨-, hlen⟩ := of_decide_eq_true h
    simp only [requestPayload, List.length_cons, length_valueListBytes]
    omega
  | windProfileWrite p vs =>
    have hlen : vs.length = 17 := eq_of_beq h
    simp only [requestPayload, List.length_cons, length_halfListBytes]
    omega
  | _ => simp [requestPayload, halfBytes]

/-- Settles O8, request by request. -/
theorem requestsReadBack : Obligations.RequestsReadBack := fun _ h => ⟨readRequest_payload h, length_requestPayload h⟩

/-! ### A frame's bytes on the line (R173) -/

theorem body_eq (f : Frame) :
    f.body = BitVec.ofNat 8 (f.payload.length + 2) :: f.kind :: f.tag :: f.payload := rfl

/-- What comes after START, cut anywhere before its end, asks for more. -/
theorem gather_more {f : Frame} {seen rest : List Byte} (hf : f.payload.length ≤ 200) (hr : rest ≠ [])
    (h : seen ++ rest = f.body ++ halfBytes (crc16 f.body)) : gather seen = .more := by
  have hlen : (BitVec.ofNat 8 (f.payload.length + 2)).toNat = f.payload.length + 2 := by
    rw [BitVec.toNat_ofNat]; omega
  cases seen with
  | nil => rfl
  | cons len seen =>
    rw [body_eq, List.cons_append, List.cons_append] at h
    obtain ⟨rfl, htail⟩ := List.cons.inj h
    have hpos := List.length_pos_iff.mpr hr
    have hsum := congrArg List.length htail
    simp only [List.length_append, List.length_cons, halfBytes, List.length_nil] at hsum
    rw [gather, hlen, if_neg (by omega), if_pos (by omega)]

/-- The whole of what comes after START is the frame, its CRC right (R172). -/
theorem gather_wire {f : Frame} (hf : f.payload.length ≤ 200) :
    gather (f.body ++ halfBytes (crc16 f.body)) = .done f true := by
  have hlen : (BitVec.ofNat 8 (f.payload.length + 2)).toNat = f.payload.length + 2 := by
    rw [BitVec.toNat_ofNat]; omega
  generalize hc : crc16 f.body = c
  rw [body_eq] at hc ⊢
  rw [List.cons_append, gather, hlen, if_neg (by omega), if_neg (by simp [halfBytes])]
  simp only [List.cons_append, gatheredFrame, hlen, Nat.add_sub_cancel, List.take_left', List.drop_left', hc,
    beq_self_eq_true]

theorem setReceiver_time (p : Port) (r : Receiver) (s : State) : (setReceiver p r s).time = s.time := rfl

theorem setReceiver_port (p : Port) (r : Receiver) (s : State) :
    (setReceiver p r s).port p = { s.port p with receiver := r } := setPort_port_self ..

theorem setReceiver_setReceiver (p : Port) (r x : Receiver) (s : State) :
    setReceiver p r (setReceiver p x s) = setReceiver p r s := by
  rw [setReceiver, setReceiver_port, setReceiver, setPort_setPort, setReceiver]

theorem setReceiver_same {p : Port} {r : Receiver} {s : State} (h : (s.port p).receiver = r) : setReceiver p r s = s := by
  subst h
  exact setPort_same s p

theorem exec_byte {p : Port} {b : Byte} {stop : Bool} {s : State} (h : s.time.resetHeld = false) :
    exec (.linkByteReceived p b stop) s = .next (byteArrives p b stop s) := by
  show Host.Outcome.next (unlessReset _ s) = _
  rw [unlessReset, h]
  rfl

theorem byteArrives_frameByte {p : Port} {seen : List Byte} {e : Nat} {b : Byte} {s : State} :
    byteArrives p b true (setReceiver p (.inFrame seen e) s) =
      frameByte p seen e b true (setReceiver p (.inFrame seen e) s) := by
  simp only [byteArrives, setReceiver_port]

/-- A byte that completes nothing joins the frame (R173). -/
theorem byteArrives_more {p : Port} {seen : List Byte} {e : Nat} {b : Byte} {s : State}
    (h : gather (seen ++ [b]) = .more) :
    byteArrives p b true (setReceiver p (.inFrame seen e) s) = setReceiver p (.inFrame (seen ++ [b]) e) s := by
  simp only [byteArrives_frameByte, frameByte, h, if_true, setReceiver_setReceiver]

/-- A byte that completes a frame with its CRC right makes the frame arrive (R173). -/
theorem byteArrives_done {p : Port} {seen : List Byte} {e : Nat} {b : Byte} {f : Frame} {s : State}
    (h : gather (seen ++ [b]) = .done f true) :
    byteArrives p b true (setReceiver p (.inFrame seen e) s) = frameArrives p f (setReceiver p .hunting s) := by
  simp only [byteArrives_frameByte, frameByte, h, if_true, setReceiver_setReceiver]

theorem receiveAll_cons {p : Port} {b : Byte} {bs : List Byte} {s : State} (h : s.time.resetHeld = false) :
    receiveAll p (b :: bs) s = receiveAll p bs (byteArrives p b true s) := by
  rw [receiveAll, exec_byte h]

/-- The bytes still missing of a frame bring its arrival. -/
theorem receiveAll_rest {p : Port} {f : Frame} {s : State} (hf : f.payload.length ≤ 200)
    (h : s.time.resetHeld = false) (rest : List Byte) (hr : rest ≠ []) (seen : List Byte)
    (hw : seen ++ rest = f.body ++ halfBytes (crc16 f.body)) :
    receiveAll p rest (setReceiver p (.inFrame seen 0) s) = .next (frameArrives p f (setReceiver p .hunting s)) := by
  induction rest generalizing seen with
  | nil => exact absurd rfl hr
  | cons b rest ih =>
    rw [receiveAll_cons (s := setReceiver p (.inFrame seen 0) s) h]
    rw [List.append_cons] at hw
    by_cases hrest : rest = []
    · subst hrest
      rw [List.append_nil] at hw
      rw [byteArrives_done (by rw [hw, gather_wire hf]), receiveAll]
    · rw [byteArrives_more (gather_more hf hrest hw)]
      exact ih hrest _ hw

/-- A frame sent byte by byte on a hunting port is the arrival of that frame (R173). -/
theorem receiveAll_wire {p : Port} {f : Frame} {s : State} (hf : f.payload.length ≤ 200)
    (h : s.time.resetHeld = false) (hr : (s.port p).receiver = .hunting) :
    receiveAll p f.wire s = .next (frameArrives p f s) := by
  have hstart : byteArrives p 0xC3 true s = setReceiver p (.inFrame [] 0) s := by
    rw [byteArrives, hr]
    rfl
  rw [Frame.wire, receiveAll_cons h, hstart]
  refine (receiveAll_rest hf h _ (by simp [body_eq]) [] (List.nil_append _)).trans ?_
  rw [setReceiver_same hr]

/-- Settles O9: a request's frame is one of the frames, and its command their arrival. -/
theorem wireBytesMakeFrame : Obligations.WireBytesMakeFrame := by
  intro p s h hr
  refine ⟨fun f hf => receiveAll_wire hf h hr, fun tag r hw => ?_⟩
  rw [receiveAll_wire (length_requestPayload hw) h hr, requestArrives_running h]

end Sys2Proof.Machine

/-! Proofs: the cold reset (R15, R41, R134, R143, R150). -/

namespace Sys2Proof.Machine

theorem setGroup_same (s : State) (g : GroupId) : setGroup g (s.group g) s = s := by cases g <;> rfl

/-- A group that selects no input matches (R146). -/
theorem matchOf_unselected {g : InputGroup} (h : g.select = 0) (m : BitVec 8) : g.matchOf m = true := by
  simp [InputGroup.matchOf, h]

/-- The end of a reset leaves a group at its defaults, without an entry, as it is (R150). -/
theorem groupResetEnd_cold {g : GroupId} {s : State} (hg : s.group g = .cold) (hn : s.hold (.inputs g) = none) :
    groupResetEnd g s = s := by
  have hset : setGroup g { s.group g with isMatch := true, factor := false } s = s := by
    rw [hg]
    exact (congrArg (setGroup g · s) hg.symm).trans (setGroup_same s g)
  have hmatch : formMatch g .reset s = s := by
    unfold formMatch
    dsimp only
    rw [if_pos (matchOf_unselected (by rw [hg]; rfl) _), hg]
    exact (congrArg (setGroup g · s) hg.symm).trans (setGroup_same s g)
  rw [groupResetEnd, hset, reformGroup, hmatch, judgeInputs, hg]
  exact holdRemove_absent hn

/-- The state that the cold reset holds, with the counter, the lines and the pins as they have become (log 3). -/
def heldCold (s : State) (count : Count) (ready released set : Bool) (pins : List Bool) : State :=
  { coldReset s with
    ptr := { (coldReset s).ptr with counter := count }
    roc := { (coldReset s).roc with driveReady := ready, brakeReleased := released, brakeSet := set }
    pim := { (coldReset s).pim with inputs := pins.map fun b => { raw := b, filtered := false, timer := none } } }

/-- The wind's entry at the end of a cold reset: GUSTY's NO_BOARD, and its two notices (R131, R132, R134). -/
theorem windHandOver_cold (s : State) (count : Count) (ready released set : Bool) (pins : List Bool) :
    windHandOver none .reset (resetEndBegun (heldCold s count ready released set pins)) =
      { resetEndBegun (heldCold s count ready released set pins) with
        hlu := State.reset.hlu
        lkp := State.reset.lkp } := rfl

/-- The filtered inputs are taken at the end of a reset, and groups at their defaults stay so (R150). -/
theorem inputsResetEnd_cold {s : State} (h0 : s.group .g0 = .cold) (h1 : s.group .g1 = .cold)
    (hn : ∀ g, s.hold (.inputs g) = none) :
    inputsResetEnd s = { s with pim := { s.pim with inputs := s.pim.inputs.map Input.taken } } := by
  let t := { s with pim := { s.pim with inputs := s.pim.inputs.map Input.taken } }
  have e0 : groupResetEnd .g0 t = t := groupResetEnd_cold h0 (hn _)
  have e1 : groupResetEnd .g1 t = t := groupResetEnd_cold h1 (hn _)
  exact (congrArg _ e0).trans e1

theorem brakeSetStart_eq (r : Roc) :
    brakeSetStart r = { r with
      brakeConfirmed := r.brakeSet, brakeSetTimer := if r.brakeSet then none else some 0 } := by
  unfold brakeSetStart
  cases r.brakeSet <;> rfl

/-- Settles O10: what the reset holds is a fixed state but for the counter, the lines and the pins, and its end forms the
wind's entry and takes the inputs. -/
theorem coldResetLeavesDefaults : Obligations.ColdResetLeavesDefaults := by
  refine ⟨fun s h => congrArg _ (coldResetEnd_running h), fun s => ⟨coldReset s, rfl, rfl, rfl, rfl, rfl, rfl, rfl, ?_, ?_⟩⟩
  · simp only [coldReset, List.map_map]
    exact List.map_congr_left fun _ _ => rfl
  · intro count ready released set pins
    dsimp only
    have hend : coldResetEnd (heldCold s count ready released set pins) =
        inputsResetEnd (windHandOver none .reset (resetEndBegun (heldCold s count ready released set pins))) :=
      coldResetEnd_held rfl
    rw [windHandOver_cold, inputsResetEnd_cold rfl rfl fun _ => rfl, resetEndBegun, brakeWaitStarts, brakeSetStart_eq]
      at hend
    have hpins : (pins.map fun b => ({ raw := b, filtered := false, timer := none } : Input)).map Input.taken =
        pins.map fun b => { raw := b, filtered := b, timer := none } := by
      rw [List.map_map]
      exact List.map_congr_left fun _ _ => rfl
    refine congrArg Host.Outcome.next (hend.trans ?_)
    simp only [heldCold, hpins]
    rfl

end Sys2Proof.Machine

/-! Proofs: the counters, the feedback lines and the Rotation Controller's timers (R3, R4, R18, R21, R22, R24, R119, R182). -/

namespace Sys2Proof.Machine

theorem unlessReset_running {e : State → State} {s : State} (h : s.time.resetHeld = false) : unlessReset e s = e s := by
  rw [unlessReset, h]
  rfl

/-! ### Counters and latches -/

/-- A counter that stops at a bound. -/
theorem min_succ_eq (b n : Nat) : min b (n + 1) = if n < b then n + 1 else b := by
  split <;> omega

/-- Settles O16: each command is one field's update. -/
theorem countersCount : Obligations.CountersCount := by
  refine ⟨fun _ _ => rfl, fun s h => ⟨?mark, ?clock, ?grace, fun ch => ?pulse⟩⟩
  case mark => exact congrArg Host.Outcome.next (unlessReset_running h)
  case clock =>
    refine congrArg Host.Outcome.next ((unlessReset_running h).trans ?_)
    rw [clockTick, min_succ_eq]
  case grace => exact congrArg Host.Outcome.next (unlessReset_running h)
  case pulse =>
    refine congrArg Host.Outcome.next ((unlessReset_running h).trans ?_)
    rw [pulse, min_succ_eq]

/-! ### The feedback lines (R18, R21, R22) -/

section Lines

variable {r : Roc} {s : State}

theorem brakeReleasedArrives_releasing (hr : r.rotation = .releasing) (ht : r.releaseTimer.isSome = true) :
    brakeReleasedArrives r = { r with releaseTimer := none, rotation := .running, grace := some 0 } :=
  if_pos ⟨hr, ht⟩

theorem brakeReleasedArrives_other (h : r.rotation ≠ .releasing ∨ r.releaseTimer = none) : brakeReleasedArrives r = r :=
  if_neg fun ⟨hr, ht⟩ => h.elim (· hr) fun hn => by simp [hn] at ht

theorem brakeSetArrives_timed (h : r.brakeSetTimer.isSome = true) :
    brakeSetArrives r = { r with brakeSetTimer := none, brakeConfirmed := true } :=
  if_pos h

theorem brakeSetArrives_braked (h : r.brakeSetTimer = none) (hb : brakeEnergised r.rotation = false) :
    brakeSetArrives r = { r with brakeConfirmed := true } := by
  rw [brakeSetArrives, h, hb]
  rfl

theorem brakeSetArrives_energised (h : r.brakeSetTimer = none) (hb : brakeEnergised r.rotation = true) :
    brakeSetArrives r = r := by
  rw [brakeSetArrives, h, hb]
  rfl

theorem brakeEnergised_iff (r : Rotation) : brakeEnergised r = true ↔ r ≠ .braked ∧ r ≠ .tripped := by
  cases r <;> decide

/-- A named arrival makes its line present and is acted on (R18). -/
theorem lineArrival_running (h : s.time.resetHeld = false) (l : FeedbackLine) :
    lineArrival l s = { s with roc := lineArrives l (s.roc.withLine l true) } := by
  simp only [lineArrival, h, Bool.false_eq_true, ↓reduceIte]

/-- A line that goes absent changes its pin alone (R18). -/
theorem lineChanges_absent (l : FeedbackLine) : lineChanges l false s = { s with roc := s.roc.withLine l false } := rfl

/-- A line that comes from absent is an arrival (R18). -/
theorem lineChanges_arrival {l : FeedbackLine} (h : s.time.resetHeld = false) (hl : s.roc.line l = false) :
    lineChanges l true s = lineArrival l s := by
  rw [lineArrival_running h, lineChanges, hl, h]
  rfl

/-- DRIVE_READY is consulted at updates only (R18). -/
theorem lineChanges_driveReady (b : Bool) :
    lineChanges .driveReady b s = { s with roc := { s.roc with driveReady := b } } := by
  unfold lineChanges
  split <;> rfl

end Lines

/-- Settles O17, from what each arrival does to the Rotation Controller. -/
theorem feedbackLinesAct : Obligations.FeedbackLinesAct := by
  intro s h
  have released {r : Roc} (hr : brakeReleasedArrives { s.roc with brakeReleased := true } = r) :
      exec .brakeReleasedArrival s = .next { s with roc := r } :=
    congrArg _ ((lineArrival_running h .brakeReleased).trans (hr ▸ rfl))
  have brakeSet {r : Roc} (hr : brakeSetArrives { s.roc with brakeSet := true } = r) :
      exec .brakeSetArrival s = .next { s with roc := r } :=
    congrArg _ ((lineArrival_running h .brakeSet).trans (hr ▸ rfl))
  refine ⟨fun hr ht => released (brakeReleasedArrives_releasing hr ht),
    fun hno => released (brakeReleasedArrives_other hno), fun ht => brakeSet (brakeSetArrives_timed ht),
    fun hn hb => brakeSet (brakeSetArrives_braked hn ?off),
    fun hn hb ht => brakeSet (brakeSetArrives_energised hn ((brakeEnergised_iff _).mpr ⟨hb, ht⟩)),
    fun b => congrArg _ (lineChanges_driveReady b), rfl, rfl,
    fun hl => congrArg _ (lineChanges_arrival (l := .brakeReleased) h hl),
    fun hl => congrArg _ (lineChanges_arrival (l := .brakeSet) h hl)⟩
  case off => rcases hb with hb | hb <;> exact congrArg brakeEnergised hb

/-! ### The release, stand and brake-set timers (R21, R22, R24) -/

section Timers

variable {s : State}

theorem releaseTimeout_releasing (ht : s.roc.releaseTimer.isSome = true) (hr : s.roc.rotation = .releasing) :
    releaseTimeout s = report .brakeReleaseTimeout none { s with roc := enterBraked s.roc } :=
  if_pos ⟨ht, hr⟩

theorem releaseTimeout_stopped (ht : s.roc.releaseTimer = none) : releaseTimeout s = s :=
  if_neg fun ⟨hs, _⟩ => by simp [ht] at hs

theorem standExpires_standing (ht : s.roc.standTimer.isSome = true) (hr : s.roc.rotation = .standing) :
    standExpires s = { s with roc := enterBraked s.roc } :=
  if_pos ⟨ht, hr⟩

theorem standExpires_stopped (ht : s.roc.standTimer = none) : standExpires s = s :=
  if_neg fun ⟨hs, _⟩ => by simp [ht] at hs

theorem brakeSetTimeout_running (ht : s.roc.brakeSetTimer.isSome = true) :
    brakeSetTimeout s = report .brakeSetTimeout none { s with roc := { s.roc with brakeSetTimer := none } } :=
  if_pos ht

theorem brakeSetTimeout_stopped (ht : s.roc.brakeSetTimer = none) : brakeSetTimeout s = s :=
  if_neg fun hs => by simp [ht] at hs

end Timers

/-- Settles O18: an expiry acts while its timer runs, and brakes the wheel with the brake line as it is found. -/
theorem rotationTimersExpire : Obligations.RotationTimersExpire := by
  intro s h
  have next {e : State → State} {t : State} (he : e s = t) : (.next (unlessReset e s) : Result) = .next t :=
    congrArg _ ((unlessReset_running h).trans he)
  refine ⟨fun ht hr => next ?_, fun ht => next (releaseTimeout_stopped ht), fun ht hr => next ?_,
    fun ht => next (standExpires_stopped ht), fun ht => next (brakeSetTimeout_running ht),
    fun ht => next (brakeSetTimeout_stopped ht)⟩
  · rw [releaseTimeout_releasing ht hr, enterBraked, brakeSetStart_eq]
  · rw [standExpires_standing ht hr, enterBraked, brakeSetStart_eq]

end Sys2Proof.Machine

/-! Proofs: a report at the Fault Bank Unit (R156 to R165). -/

namespace Sys2Proof.Machine

/-! ### The parts of a report -/

/-- The state after an unmasked report's own bank and notices, before its hand-overs (R156). -/
def State.reportNoticed (s : State) (code : FaultCode) (subject : Option Nat) : State :=
  let n := (s.bank code.bank).reported (s.reportRecord code subject)
  let logged :=
    if n.1.notifies code then
      notify (.faultLogged code subject s.ptr.angle s.cfs.clock n.2 n.1.counter n.1.overflow n.1.hold) (setBank code.bank n.1 s)
    else setBank code.bank n.1 s
  if ((s.bank code.bank).counted code).thresholdDue code then
    notify (.threshold code.bank n.1.counter n.1.threshold code subject logged.cfs.clock) logged
  else logged

/-- The hand-over of a CABIN fault to its cabin (R165). -/
def faultHandOver (code : FaultCode) (subject : Option Nat) (s : State) : State :=
  match code.scope, subject with
  | .cabin, some k => cabinFault code k s
  | _, _ => s

/-- The FAULT entry follows a hold level that has changed (R163, R164). -/
def faultEntry (b : BankId) (before after : Option FaultAction) (s : State) : State :=
  match after with
  | none => s
  | some a => if after = before then s else holdInsert (.fault b) a.level s

section Codes

variable {c : FaultCode} {a : FaultAction}

/-- Only WHEEL codes have an action (R155). -/
theorem FaultCode.scope_of_action (h : c.action = some a) : c.scope = .wheel := by
  cases c <;> first | rfl | cases h

theorem FaultCode.action_of_cabin (h : c.scope = .cabin) : c.action = none := by
  cases c <;> first | rfl | cases h

theorem FaultCode.action_of_signal (h : c.scope = .signal) : c.action = none := by
  cases c <;> first | rfl | cases h

/-- No SIGNAL code is uncorrectable (R155). -/
theorem FaultCode.cls_of_signal (h : c.scope = .signal) : c.cls ≠ .uncorrectable := by
  cases c <;> first | exact FaultClass.noConfusion | cases h

end Codes

section Parts

variable {c : FaultCode} {s : State} (subject : Option Nat)

/-- The bank and the notices of a report leave all but the bank and the ports. -/
theorem reportNoticed_eq (c : FaultCode) (s : State) :
    ∃ v, s.reportNoticed c subject = { setBank c.bank (s.reportedBank c subject) s with lkp := v } := by
  unfold State.reportNoticed State.reportedBank
  dsimp only
  split <;> split <;> exact ⟨_, rfl⟩

/-- An unmasked report: bank and notices, then the hand-over, then the entry. -/
theorem report_unmasked (hm : (s.bank c.bank).masks c = false) :
    report c subject s = faultEntry c.bank (s.bank c.bank).hold (s.reportedBank c subject).hold
      (faultHandOver c subject (s.reportNoticed c subject)) := by
  rw [report, if_neg (by rw [hm]; exact Bool.noConfusion)]
  rfl

theorem faultEntry_same {b : BankId} {x : Option FaultAction} : faultEntry b x x s = s := by
  cases x with
  | none => rfl
  | some _ => exact if_pos rfl

theorem faultEntry_new {b : BankId} {x : Option FaultAction} {a : FaultAction} (h : x ≠ some a) :
    faultEntry b x (some a) s = holdInsert (.fault b) a.level s := if_neg (Ne.symm h)

theorem faultHandOver_none (h : c.scope ≠ .cabin) : faultHandOver c subject s = s := by
  unfold faultHandOver
  split
  · contradiction
  · rfl

theorem faultHandOver_cabin {k : Nat} (h : c.scope = .cabin) : faultHandOver c (some k) s = cabinFault c k s := by
  unfold faultHandOver
  rw [h]

/-- A code without an action makes no entry. -/
theorem report_without_action (hm : (s.bank c.bank).masks c = false) (ha : c.action = none) :
    report c subject s = faultHandOver c subject (s.reportNoticed c subject) := by
  rw [report_unmasked subject hm, reportedBank_hold, ha]
  exact faultEntry_same

theorem reportedBank_hold_of_none (ha : c.action = none) : (s.reportedBank c subject).hold = (s.bank c.bank).hold := by
  rw [reportedBank_hold, ha]

/-- A SIGNAL code's report is its bank and its notices (R165). -/
theorem report_signal (hm : (s.bank c.bank).masks c = false) (hc : c.scope = .signal) :
    report c subject s = s.reportNoticed c subject := by
  rw [report_without_action subject hm (FaultCode.action_of_signal hc),
    faultHandOver_none subject (by rw [hc]; exact FaultScope.noConfusion)]

theorem report_bank_self (hm : (s.bank c.bank).masks c = false) :
    (report c subject s).bank c.bank = s.reportedBank c subject := (report_content subject hm).1

end Parts

/-! ### The bank (R159, R161) -/

section Bank

variable (c : FaultCode) (s : State) (subject : Option Nat)

theorem reportedBank_counter_uncorrectable (h : c.cls = .uncorrectable) :
    (s.reportedBank c subject).counter = (s.bank c.bank).counter ∧
      (s.reportedBank c subject).thresholdReached = (s.bank c.bank).thresholdReached := by
  simp [State.reportedBank, Bank.reported_bank, State.reportRecord, h]

theorem reportedBank_counter (h : c.cls ≠ .uncorrectable) :
    (s.reportedBank c subject).counter = min 4095 ((s.bank c.bank).counter + 1) ∧
      (s.reportedBank c subject).thresholdReached = ((s.bank c.bank).thresholdReached ||
        decide ((s.bank c.bank).threshold ≠ 0 ∧ (s.bank c.bank).threshold ≤ min 4095 ((s.bank c.bank).counter + 1))) := by
  simp [State.reportedBank, Bank.reported_bank, State.reportRecord, bne, Bool.beq_eq_decide_eq, h]

theorem reportedBank_empty (h : (s.bank c.bank).record = none) :
    (s.reportedBank c subject).record = some (s.reportRecord c subject) ∧
      (s.reportedBank c subject).overflow = (s.bank c.bank).overflow := by
  simp [State.reportedBank, Bank.reported_bank, h]

theorem reportedBank_replaced {r : FaultRecord} (h : (s.bank c.bank).record = some r) (hc : r.code.cls.code < c.cls.code) :
    (s.reportedBank c subject).record = some (s.reportRecord c subject) ∧ (s.reportedBank c subject).overflow = true := by
  simp [State.reportedBank, Bank.reported_bank, h, State.reportRecord, hc]

theorem reportedBank_kept {r : FaultRecord} (h : (s.bank c.bank).record = some r) (hc : c.cls.code ≤ r.code.cls.code) :
    (s.reportedBank c subject).record = some r ∧ (s.reportedBank c subject).overflow = true := by
  simp [State.reportedBank, Bank.reported_bank, h, State.reportRecord, Nat.not_lt.mpr hc]

theorem reportedBank_settings :
    (s.reportedBank c subject).mask = (s.bank c.bank).mask ∧
      (s.reportedBank c subject).threshold = (s.bank c.bank).threshold ∧
      (s.reportedBank c subject).noticeCorrectable = (s.bank c.bank).noticeCorrectable ∧
      (s.reportedBank c subject).noticeDeferred = (s.bank c.bank).noticeDeferred := by
  simp [State.reportedBank, Bank.reported_bank]

end Bank

/-! ### The hold level and its entry (R163, R164) -/

section Acting

variable {c : FaultCode} {s : State} {a : FaultAction} (subject : Option Nat)

/-- A bank whose hold level an action changes has its entry at the new one. -/
theorem report_entry (hm : (s.bank c.bank).masks c = false) (hd : (s.reportedBank c subject).hold = some a)
    (hb : (s.bank c.bank).hold ≠ some a) :
    (report c subject s).hold (.fault c.bank) =
      some { id := .fault c.bank, level := a.level, time := s.cfs.clock } :=
  (report_content subject hm).2.2.2.2.1 a hd hb

theorem reportNoticed_hlu (c : FaultCode) (s : State) : (s.reportNoticed c subject).hlu = s.hlu := by
  obtain ⟨_, h⟩ := reportNoticed_eq subject c s
  rw [h, setBank_hlu]

theorem reportNoticed_cabins (c : FaultCode) (s : State) : (s.reportNoticed c subject).bsq.cabins = s.bsq.cabins := by
  obtain ⟨_, h⟩ := reportNoticed_eq subject c s
  rw [h, setBank_bsq]

theorem slowJudge_bsq (s : State) : (slowJudge s).bsq = s.bsq := by
  unfold slowJudge
  repeat' split
  all_goals rfl

theorem cabinFault_cabins (c : FaultCode) (k : Nat) (s : State) :
    (cabinFault c k s).bsq.cabins = (setCabin k (suspectAfter s.cfs.boarding.k (s.cabin k)) s).bsq.cabins := by
  unfold cabinFault serviceChange
  dsimp only
  rw [slowJudge_bsq]
  split <;> rfl

theorem faultHandOver_hlu (c : FaultCode) (s : State) : (faultHandOver c subject s).hlu = s.hlu := by
  unfold faultHandOver
  split
  · exact (serviceChange_hlu ..).1
  · rfl

theorem report_hlu_of_none (hm : (s.bank c.bank).masks c = false) (ha : c.action = none) :
    (report c subject s).hlu = s.hlu := by
  rw [report_without_action subject hm ha, faultHandOver_hlu, reportNoticed_hlu]

theorem report_hlu_of_same (hm : (s.bank c.bank).masks c = false)
    (hh : (s.reportedBank c subject).hold = (s.bank c.bank).hold) : (report c subject s).hlu = s.hlu := by
  rw [report_unmasked subject hm, hh, faultEntry_same, faultHandOver_hlu, reportNoticed_hlu]

/-- A code with an action reaches no cabin (R165). -/
theorem report_cabins_of_action (hm : (s.bank c.bank).masks c = false) (ha : c.action = some a) :
    (report c subject s).bsq.cabins = s.bsq.cabins := by
  rw [report_unmasked subject hm, faultHandOver_none subject (by rw [FaultCode.scope_of_action ha]; exact FaultScope.noConfusion)]
  unfold faultEntry
  split
  · exact reportNoticed_cabins ..
  · next a' _ =>
    split
    · exact reportNoticed_cabins ..
    · rw [(holdInsert_content a'.level_ne_none HoldId.noConfusion _).1.cabins, reportNoticed_cabins]

/-- A CABIN code gives its cabin the next state of R95, and reaches no other. -/
theorem report_cabin_records {k : Nat} (hm : (s.bank c.bank).masks c = false) (hc : c.scope = .cabin) (j : Nat) :
    (report c (some k) s).cabin j = (setCabin k (suspectAfter s.cfs.boarding.k (s.cabin k)) s).cabin j := by
  obtain ⟨_, h⟩ := reportNoticed_eq (some k) c s
  rw [report_without_action _ hm (FaultCode.action_of_cabin hc), faultHandOver_cabin hc, State.cabin, cabinFault_cabins, h]
  rfl

end Acting

/-! ### The notices (R159, R162) -/

/-- The notices of a SIGNAL code go by the bank's flags, and THRESHOLD when the flag is set by this report. -/
theorem reportNoticed_signal {c : FaultCode} (subject : Option Nat) (s : State) (hc : c.scope = .signal) :
    let b := s.bank c.bank
    let d := s.reportedBank c subject
    let disposition := (b.reported (s.reportRecord c subject)).2
    let logged :=
      if (c.cls = .deferred ∧ b.noticeDeferred = true) ∨ (c.cls = .correctable ∧ b.noticeCorrectable = true) then
        notify (.faultLogged c subject s.ptr.angle s.cfs.clock disposition d.counter d.overflow d.hold) (setBank c.bank d s)
      else setBank c.bank d s
    s.reportNoticed c subject = if b.thresholdReached = false ∧ d.thresholdReached = true then
        notify (.threshold c.bank d.counter d.threshold c subject s.cfs.clock) logged
      else logged := by
  have hcls := FaultCode.cls_of_signal hc
  have hn : ((s.reportedBank c subject).notifies c = true) = ((c.cls = .deferred ∧ (s.bank c.bank).noticeDeferred = true) ∨
      (c.cls = .correctable ∧ (s.bank c.bank).noticeCorrectable = true)) := by
    obtain ⟨-, -, hcorr, hdef⟩ := reportedBank_settings c s subject
    unfold Bank.notifies
    rw [hcorr, hdef]
    cases hk : c.cls <;> simp_all
  have ht : (((s.bank c.bank).counted c).thresholdDue c = true) =
      ((s.bank c.bank).thresholdReached = false ∧ (s.reportedBank c subject).thresholdReached = true) := by
    rw [(reportedBank_counter c s subject hcls).2]
    unfold Bank.thresholdDue Bank.counted
    cases h : (s.bank c.bank).thresholdReached <;> simp [hcls, bne]
  dsimp only
  unfold State.reportNoticed
  dsimp only
  rw [show ((s.bank c.bank).reported (s.reportRecord c subject)).1 = s.reportedBank c subject from rfl]
  simp only [← hn, ← ht]
  by_cases h : (s.reportedBank c subject).notifies c = true <;> simp only [h, Bool.false_eq_true, ↓reduceIte, notify_cfs, setBank_cfs]

/-- Settles O19, from the parts of an unmasked report: its bank, its notices, the hand-over and the entry. -/
theorem reportFillsBankAndHoldsRide : Obligations.ReportFillsBankAndHoldsRide := by
  intro c subject s b t d record
  refine ⟨fun _ hm => report_masked subject hm, fun hm => ?_⟩
  have hd : d = s.reportedBank c subject := report_bank_self subject hm
  have ev : Event s t := report_event c subject s
  obtain ⟨hmask, hthr, hcorr, hdef⟩ := reportedBank_settings c s subject
  rw [hd]
  refine ⟨reportedBank_counter_uncorrectable c s subject, reportedBank_counter c s subject, reportedBank_empty c s subject,
    fun _ => reportedBank_replaced c s subject, fun _ => reportedBank_kept c s subject, hmask, hthr, hcorr, hdef,
    (report_content subject hm).2.1,
    fun ha => ⟨reportedBank_hold_of_none subject ha, report_hlu_of_none subject hm ha⟩, fun a ha => ?action, ?cabin, ?signal,
    ev.ptr, ev.wmn, ev.pim, ev.cfs, ev.time⟩
  case action =>
    have hh : (s.reportedBank c subject).hold = if (s.bank c.bank).hold.isSome then some .park else some a := by
      rw [reportedBank_hold, ha]
    refine ⟨fun hn => ?_, fun hs => ?_, fun hp => ?_, report_cabins_of_action subject hm ha⟩
    · rw [show (s.bank c.bank).hold = none from hn] at hh
      exact ⟨hh, report_entry subject hm hh (by rw [show (s.bank c.bank).hold = none from hn]; exact nofun)⟩
    · rw [show (s.bank c.bank).hold = some .stop from hs] at hh
      exact ⟨hh, report_entry subject hm hh (by rw [show (s.bank c.bank).hold = some .stop from hs]; exact nofun)⟩
    · rw [show (s.bank c.bank).hold = some .park from hp] at hh
      exact ⟨hh, report_hlu_of_same subject hm (hh.trans hp.symm)⟩
  case cabin =>
    rintro hc k rfl h1 h2
    exact ⟨(report_cabin_records hm hc k).trans (setCabin_cabin_self s k _ ⟨h1, h2⟩),
      fun x hx => (report_cabin_records hm hc x).trans (setCabin_cabin_other s _ hx)⟩
  case signal =>
    intro hc disposition logged
    have hdisp : ((s.bank c.bank).reported (s.reportRecord c subject)).2 = disposition :=
      (Bank.reported_disposition ..).trans (by simp only [disposition]; rfl)
    have ht : t = s.reportNoticed c subject := report_signal subject hm hc
    rw [ht, reportNoticed_signal subject s hc, hdisp]

end Sys2Proof.Machine

/-! Proofs: the request layer: a frame's judgement by its KIND, station and length (R175, R176, R189). -/

namespace Sys2Proof.Machine

/-! ### The state in which a free port handles a request -/

section Taken

variable (p : Port) (f : Frame) (s : State)

@[simp] theorem taken_ptr : (taken p f s).ptr = s.ptr := by
  obtain ⟨q, hq⟩ := taken_eq_setPort p f s
  rw [hq, setPort_ptr]

@[simp] theorem taken_roc : (taken p f s).roc = s.roc := by
  obtain ⟨q, hq⟩ := taken_eq_setPort p f s
  rw [hq, setPort_roc]

@[simp] theorem taken_mvu : (taken p f s).mvu = s.mvu := by
  obtain ⟨q, hq⟩ := taken_eq_setPort p f s
  rw [hq, setPort_mvu]

@[simp] theorem taken_cru : (taken p f s).cru = s.cru := by
  obtain ⟨q, hq⟩ := taken_eq_setPort p f s
  rw [hq, setPort_cru]

@[simp] theorem taken_bsq : (taken p f s).bsq = s.bsq := by
  obtain ⟨q, hq⟩ := taken_eq_setPort p f s
  rw [hq, setPort_bsq]

@[simp] theorem taken_wmn : (taken p f s).wmn = s.wmn := by
  obtain ⟨q, hq⟩ := taken_eq_setPort p f s
  rw [hq, setPort_wmn]

@[simp] theorem taken_hlu : (taken p f s).hlu = s.hlu := by
  obtain ⟨q, hq⟩ := taken_eq_setPort p f s
  rw [hq, setPort_hlu]

@[simp] theorem taken_pim : (taken p f s).pim = s.pim := by
  obtain ⟨q, hq⟩ := taken_eq_setPort p f s
  rw [hq, setPort_pim]

@[simp] theorem taken_fbu : (taken p f s).fbu = s.fbu := by
  obtain ⟨q, hq⟩ := taken_eq_setPort p f s
  rw [hq, setPort_fbu]

@[simp] theorem taken_time : (taken p f s).time = s.time := by
  obtain ⟨q, hq⟩ := taken_eq_setPort p f s
  rw [hq, setPort_time]

@[simp] theorem taken_hold (id : HoldId) : (taken p f s).hold id = s.hold id := hold_congr (taken_hlu p f s) id

@[simp] theorem taken_group (g : GroupId) : (taken p f s).group g = s.group g := group_congr (taken_pim p f s) g

@[simp] theorem taken_bank (b : BankId) : (taken p f s).bank b = s.bank b := by
  obtain ⟨q, hq⟩ := taken_eq_setPort p f s
  rw [hq, setPort_bank]

end Taken

/-! ### A frame's judgement -/

section Judgement

variable {p : Port} {tag : Byte} {r : Request} {f : Frame} {s : State}

theorem requestFrame_kind (tag : Byte) (r : Request) : (requestFrame tag r).kind.toNat = requestKind r := by
  cases r <;> rfl

theorem requestKind_known (r : Request) : isRequestKind (requestKind r) = true := by
  cases r <;> rfl

theorem judgeFrame_unknown (h : isRequestKind f.kind.toNat = false) : judgeFrame p f s = .refused .unknownKind 0 :=
  if_pos (by rw [h]; exact Bool.noConfusion)

theorem judgeFrame_forbidden (hk : isRequestKind f.kind.toNat = true) (hp : portMay p f.kind.toNat = false) :
    judgeFrame p f s = .refused .notPermitted 0 :=
  (if_neg (not_not_intro hk)).trans (if_pos (by rw [hp]; exact Bool.noConfusion))

theorem judgeFrame_unread (hk : isRequestKind f.kind.toNat = true) (hp : portMay p f.kind.toNat = true)
    (hr : readRequest f.kind.toNat f.payload = none) : judgeFrame p f s = .refused .badLength 0 := by
  rw [judgeFrame, if_neg (not_not_intro hk), if_neg (not_not_intro hp), hr]

/-- A well-formed request of a station that may send it comes to its owning block's answer (R175). -/
theorem judgeFrame_request (hw : r.wellFormed = true) (hp : portMay p (requestKind r) = true) :
    judgeFrame p (requestFrame tag r) s = answer p r s := by
  have hread : readRequest (requestFrame tag r).kind.toNat (requestFrame tag r).payload = some r := by
    rw [requestFrame_kind]
    exact readRequest_payload hw
  rw [judgeFrame, requestFrame_kind, if_neg (not_not_intro (requestKind_known r)), if_neg (not_not_intro hp)]
  rw [requestFrame_kind] at hread
  rw [hread]

end Judgement

/-! ### A request's outcome from its owning block's answer -/

section Outcome

variable {p : Port} {tag : Byte} {r : Request} {s : State}

theorem request_accepts {payload : List Byte} {t : State} (h : PortFree p s) (hp : portMay p (requestKind r) = true)
    (ha : answer p r (taken p (requestFrame tag r) s) = .accepted payload t) (hw : r.wellFormed = true := by rfl) :
    requestArrives p tag r s = accepts p (requestFrame tag r) payload t :=
  requestArrives_accepted h ((judgeFrame_request hw hp).trans ha)

theorem request_refuses {reason : Reason} {n : Nat} (h : PortFree p s) (hp : portMay p (requestKind r) = true)
    (ha : answer p r (taken p (requestFrame tag r) s) = .refused reason n) (hw : r.wellFormed = true := by rfl) :
    requestArrives p tag r s = refuses p (requestFrame tag r) reason n s :=
  requestArrives_refused h ((judgeFrame_request hw hp).trans ha)

/-- A frame that a free port refuses, as a frame (R176). -/
theorem frameArrives_refuses {f : Frame} {reason : Reason} {n : Nat} (h : PortFree p s)
    (ha : judgeFrame p f (taken p f s) = .refused reason n) :
    (.next (frameArrives p f s) : Result) = refuses p f reason n s :=
  congrArg _ (request_refused h ha)

/-- The control room may send every request (R176). -/
theorem portMay_p1 (k : Nat) : portMay .p1 k = true := rfl

end Outcome

/-! ### Payload lengths (R189) -/

section Lengths

variable {payload : List Byte}

theorem readNone_length {r : Request} (h : payload.length ≠ 0) : readNone r payload = none :=
  match payload, h with
  | [], h => (h rfl).elim
  | _ :: _, _ => rfl

theorem readOne_length {f : Byte → Request} (h : payload.length ≠ 1) : readOne f payload = none :=
  match payload, h with
  | [], _ => rfl
  | [_], h => (h rfl).elim
  | _ :: _ :: _, _ => rfl

theorem readTwo_length {f : Byte → Byte → Request} (h : payload.length ≠ 2) : readTwo f payload = none :=
  match payload, h with
  | [], _ => rfl
  | [_], _ => rfl
  | [_, _], h => (h rfl).elim
  | _ :: _ :: _ :: _, _ => rfl

theorem readHalf_length {f : Half → Request} (h : payload.length ≠ 2) : readHalf f payload = none :=
  match payload, h with
  | [], _ => rfl
  | [_], _ => rfl
  | [_, _], h => (h rfl).elim
  | _ :: _ :: _ :: _, _ => rfl

theorem readFaultMask_length (h : payload.length ≠ 3) : readFaultMask payload = none := by
  unfold readFaultMask
  split
  · exact (h rfl).elim
  · rfl

theorem readGroupAdd_length (h : payload.length ≠ 6) : readGroupAdd payload = none := by
  unfold readGroupAdd
  split
  · exact (h rfl).elim
  · rfl

theorem length_of_readHalfList {l : List Byte} {vs : List Half} (h : readHalfList l = some vs) : l.length = 2 * vs.length := by
  induction l using readHalfList.induct generalizing vs with
  | case1 => cases h; rfl
  | case2 a b rest hr => simp [readHalfList, hr] at h
  | case3 a b rest vs' hr ih =>
    simp only [readHalfList, hr, Option.some.injEq] at h
    subst h
    simp only [List.length_cons, ih hr]
    omega
  | case4 t h1 h2 => simp [readHalfList] at h

theorem length_of_readValueList {l : List Byte} {vs : List (Byte × Quad)} (h : readValueList l = some vs) :
    l.length = 5 * vs.length := by
  induction l using readValueList.induct generalizing vs with
  | case1 => cases h; rfl
  | case2 n b0 b1 b2 b3 rest hr => simp [readValueList, hr] at h
  | case3 n b0 b1 b2 b3 rest vs' hr ih =>
    simp only [readValueList, hr, Option.some.injEq] at h
    subst h
    simp only [List.length_cons, ih hr]
    omega
  | case4 t h1 h2 => simp [readValueList] at h

theorem readProfileWrite_length (h : payload.length ≠ 35) : readProfileWrite payload = none := by
  unfold readProfileWrite
  split
  · rfl
  · next p rest =>
    split
    · rfl
    · next vs hr =>
      have hl := length_of_readHalfList hr
      refine if_neg fun h17 => h ?_
      rw [List.length_cons, hl, h17]

theorem readConfigSet_length (h : ∀ m, 1 ≤ m → m ≤ 39 → payload.length ≠ 2 + 5 * m) : readConfigSet payload = none := by
  unfold readConfigSet
  split
  · next t i rest =>
    split
    · rfl
    · next vs hr =>
      have hl := length_of_readValueList hr
      refine if_neg fun ⟨h1, h2⟩ => h _ h1 h2 ?_
      simp only [List.length_cons, hl]
      omega
  · rfl

/-- The length that a KIND's payload must have, where it is fixed (kind table of chapter 11). -/
def payloadLength (kind : Byte) : Option Nat :=
  if kind.toNat ∈ [0x01, 0x04, 0x05, 0x06, 0x07, 0x09, 0x0C, 0x0D, 0x0E, 0x20, 0x21] then some 0
  else if kind.toNat ∈ [0x02, 0x03, 0x08, 0x0F, 0x11, 0x14, 0x15, 0x1B, 0x1C, 0x1D, 0x1E] then some 1
  else if kind.toNat ∈ [0x0A, 0x10, 0x13, 0x16, 0x17, 0x18, 0x19] then some 2
  else if kind.toNat = 0x1F then some 3
  else if kind.toNat = 0x12 then some 6
  else if kind.toNat = 0x1A then some 35
  else none

/-- Every way in which a payload is read asks for the length of the kind table. -/
theorem readRequest_length {kind : Byte} {n : Nat} (h : payloadLength kind = some n) (hl : payload.length ≠ n) :
    readRequest kind.toNat payload = none := by
  generalize hk : kind.toNat = k at *
  unfold payloadLength at h
  rw [hk] at h
  unfold readRequest
  split
  case h_34 => rfl
  all_goals cases h
  all_goals first
    | exact readNone_length hl
    | exact readOne_length hl
    | exact readTwo_length hl
    | exact readHalf_length hl
    | exact readFaultMask_length hl
    | exact readGroupAdd_length hl
    | exact readProfileWrite_length hl

end Lengths

/-! ### The port's own refusals (R175) -/

theorem isRequestKind_iff {k : Nat} : isRequestKind k = true ↔ 1 ≤ k ∧ k ≤ 0x21 := decide_eq_true_iff

theorem portMay_iff {p : Port} {k : Nat} : portMay p k = true ↔ p = .p1 ∨ k ≤ 0x0A ∨ (0x10 ≤ k ∧ k ≤ 0x18) := by
  cases p <;> simp [portMay, deskMay]

/-- Settles O32: the three checks of the port in their order, each on the KIND and the length alone. -/
theorem portRefusesUnknownAndForbidden : Obligations.PortRefusesUnknownAndForbidden := by
  refine ⟨fun p tag kind payload s hkind hfree => ?unknown, fun tag a b c vs hs s hfree r hr => ?forbidden,
    fun p f s hfree hmay => ⟨fun n hn hl => ?length, fun hk hl => ?list⟩⟩
  case unknown =>
    have hk : isRequestKind kind.toNat = false := by
      rw [← Bool.not_eq_true, isRequestKind_iff]
      have := of_decide_eq_true hkind
      omega
    refine (congrArg Host.Outcome.next (unlessReset_running hfree.running)).trans ?_
    exact frameArrives_refuses hfree (judgeFrame_unknown hk)
  case forbidden =>
    have hmay : portMay .p2 (requestKind r) = false := by
      simp only [List.mem_cons, List.not_mem_nil, or_false] at hr
      rcases hr with rfl | rfl | rfl | rfl | rfl | rfl | rfl | rfl | rfl | rfl | rfl | rfl | rfl | rfl <;> rfl
    refine requestArrives_refused hfree (judgeFrame_forbidden ?_ ?_)
    · rw [requestFrame_kind]
      exact requestKind_known r
    · rwa [requestFrame_kind]
  case length =>
    have hall : ∀ x ∈ [((0x01 : Byte), 0), (0x02, 1), (0x03, 1), (0x04, 0), (0x05, 0), (0x06, 0), (0x07, 0), (0x08, 1),
        (0x09, 0), (0x0A, 2), (0x0C, 0), (0x0D, 0), (0x0E, 0), (0x0F, 1), (0x10, 2), (0x11, 1), (0x12, 6), (0x13, 2),
        (0x14, 1), (0x15, 1), (0x16, 2), (0x17, 2), (0x18, 2), (0x19, 2), (0x1A, 35), (0x1B, 1), (0x1C, 1), (0x1D, 1),
        (0x1E, 1), (0x1F, 3), (0x20, 0), (0x21, 0)],
        payloadLength x.1 = some x.2 ∧ isRequestKind x.1.toNat = true := by decide
    obtain ⟨hlen, hkind⟩ := hall _ hn
    exact frameArrives_refuses hfree (judgeFrame_unread hkind (portMay_iff.mpr hmay) (readRequest_length hlen hl))
  case list =>
    have hread : readRequest f.kind.toNat f.payload = none := by
      rw [hk]
      exact readConfigSet_length hl
    exact frameArrives_refuses hfree (judgeFrame_unread (by rw [hk]; rfl) (portMay_iff.mpr hmay) hread)

end Sys2Proof.Machine

/-! Proofs: the requests that read (R53, R54, R75, R110, R133, R142, R150, R169, R182). -/

namespace Sys2Proof.Machine

/-! ### The stations of the requests that both may send -/

section Stations

variable (p : Port)

/-- Every read is open to both stations (R176). -/
theorem portMay_read {k : Nat} (h : k ≤ 0x0A) : portMay p k = true := portMay_iff.mpr (.inr (.inl h))

/-- The hold, queue, door, factor and move requests are open to both stations (R176). -/
theorem portMay_desk {k : Nat} (h : 0x10 ≤ k ∧ k ≤ 0x18) : portMay p k = true := portMay_iff.mpr (.inr (.inr h))

end Stations

/-! ### The payloads do not read the ports' taking of the frame -/

section Payloads

variable (p : Port) (f : Frame) (s : State)

theorem holdListPayload_taken : holdListPayload (taken p f s) = holdListPayload s := by
  rw [holdListPayload, taken_hlu, holdListPayload]

theorem trialPayload_taken : trialPayload (taken p f s) = trialPayload s := by
  rw [trialPayload, taken_mvu, taken_roc, trialPayload]

theorem windPayload_taken : windPayload (taken p f s) = windPayload s := by
  unfold windPayload
  rw [taken_wmn, taken_hold]

theorem taken_occupiedA : (taken p f s).occupiedA = s.occupiedA := by
  rw [State.occupiedA, taken_mvu]
  rfl

theorem taken_limit (o : LimitOrigin) : (taken p f s).limit o = s.limit o := by
  rw [State.limit, taken_roc, State.limit]

theorem movePayload_taken : movePayload (taken p f s) = movePayload s := by
  simp only [movePayload, State.moveEntryTravel, taken_occupiedA, taken_limit, taken_mvu, taken_cfs]

theorem inputsPayload_taken : inputsPayload (taken p f s) = inputsPayload s := by
  simp only [inputsPayload, inputGroupBytes, taken_pim, taken_group, taken_hold]

theorem cabinPayload_taken (k : Nat) : cabinPayload k (taken p f s) = cabinPayload k s := by
  rw [cabinPayload, taken_cabin, taken_node, cabinPayload]

theorem queuePayload_taken (n : Nat) : queuePayload n (taken p f s) = queuePayload n s := by
  simp only [queuePayload, groupBytes, State.partyMass, taken_bsq, taken_cfs]

theorem faultPayload_taken (l : List BankId) : faultPayload l (taken p f s) = faultPayload l s := by
  simp only [faultPayload, taken_bank]

end Payloads

/-! ### STATUS (R182) -/

theorem length_be1 (n : Nat) : (be1 n).length = 1 := rfl

theorem length_be2 (n : Nat) : (be2 n).length = 2 := rfl

theorem length_be4 (n : Nat) : (be4 n).length = 4 := rfl

theorem length_limitBytes (e : LimitPoint) : (limitBytes e).length = 13 := rfl

theorem length_statusPayload (s : State) : (statusPayload s).length = 94 + 13 * s.roc.limits.length := by
  have hbanks : (allBanks.flatMap fun b => bankStatusBytes (s.bank b)).length = 15 := rfl
  have hflight : (flightBytes s.cru.flight).length = 3 := by cases s.cru.flight <;> rfl
  have hmove : (boardingMoveBytes s.bsq.boardingMove).length = 4 := by cases s.bsq.boardingMove <;> rfl
  have hlimits : (s.roc.limits.flatMap limitBytes).length = s.roc.limits.length * 13 := by
    simp only [List.length_flatMap, length_limitBytes, List.map_const', List.sum_replicate_nat]
  simp only [statusPayload, statusWheel, statusRing, statusBoarding, statusRest, portStatusBytes, windowBytes, be2s, be4s,
    List.length_append, length_be1, length_be2, length_be4, hbanks, hflight, hmove, hlimits]
  omega

/-- The drive reference word of STATUS stands at offsets 20 and 21 (R43). -/
theorem statusPayload_driveWord (s : State) : ((statusPayload s).drop 20).take 2 = be2 s.roc.updateRef := by
  simp [statusPayload, statusWheel, be1, be2, be4, be2s]

/-- Settles O33. -/
theorem statusAnswersAndClearsNoticeLost : Obligations.StatusAnswersAndClearsNoticeLost := by
  intro p tag s hfree f u
  refine ⟨request_accepts hfree (portMay_read p (by decide)) rfl, ?_, ?_⟩
  · rw [length_statusPayload, taken_roc]
  · rw [statusPayload_driveWord, taken_roc]

/-! ### The reads of a block -/

/-- Settles O34: each answer is the block's payload, which taking the frame leaves as it was. -/
theorem blockReadsAnswerAndChangeNothing : Obligations.BlockReadsAnswerAndChangeNothing := by
  intro p tag s hfree
  refine ⟨?holds, ?moves, ?wind, ?inputs, ?trial⟩
  case holds => exact holdListPayload_taken p _ s ▸ request_accepts hfree (portMay_read p (by decide)) rfl
  case moves => exact movePayload_taken p _ s ▸ request_accepts hfree (portMay_read p (by decide)) rfl
  case wind => exact windPayload_taken p _ s ▸ request_accepts hfree (portMay_read p (by decide)) rfl
  case inputs => exact inputsPayload_taken p _ s ▸ request_accepts hfree (portMay_read p (by decide)) rfl
  case trial => exact trialPayload_taken p _ s ▸ request_accepts hfree (portMay_read p (by decide)) rfl

/-! ### The numbered reads -/

theorem BankId.ofNumber_eq_none {n : Nat} (h : n = 0 ∨ 5 < n) : BankId.ofNumber n = none := by
  unfold BankId.ofNumber
  split <;> first | rfl | omega

/-- Settles O35, request by request: the number's range decides, and no payload reads the ports. -/
theorem numberedReadsAnswerOrRefuse : Obligations.NumberedReadsAnswerOrRefuse := by
  intro p tag n s hfree
  have hmay (r : Request) (h : requestKind r ≤ 0x0A) : portMay p (requestKind r) = true := portMay_read p h
  refine ⟨⟨fun hn => ?cabin, fun hn => ?noCabin⟩, ⟨fun hn => ?queue, fun hn => ?noQueue⟩,
    ⟨fun hn => ?banks, fun b hb => ?bank, fun hn => ?noBank⟩⟩
  case cabin =>
    refine cabinPayload_taken p _ s n.toNat ▸ request_accepts hfree (hmay (.cabinRead n) (by simp [requestKind])) (if_pos ?_)
    rw [taken_cfs]
    exact Geometry.hasCabin_iff.mpr hn
  case noCabin =>
    refine request_refuses hfree (hmay (.cabinRead n) (by simp [requestKind])) (if_neg ?_)
    rw [taken_cfs, Geometry.hasCabin_iff]
    omega
  case queue =>
    exact queuePayload_taken p _ s n.toNat ▸ request_accepts hfree (hmay (.queueRead n) (by simp [requestKind])) (if_pos hn)
  case noQueue =>
    exact request_refuses hfree (hmay (.queueRead n) (by simp [requestKind])) (if_neg (by omega))
  case banks =>
    exact faultPayload_taken p _ s allBanks ▸ request_accepts hfree (hmay (.faultRead n) (by simp [requestKind])) (if_pos hn)
  case bank =>
    have h0 : n.toNat ≠ 0 := fun h0 => by rw [h0] at hb; cases hb
    refine faultPayload_taken p (requestFrame tag (.faultRead n)) s [b] ▸
      request_accepts hfree (hmay (.faultRead n) (by simp [requestKind])) ?_
    exact (if_neg h0).trans (by rw [hb])
  case noBank =>
    refine request_refuses hfree (hmay (.faultRead n) (by simp [requestKind])) ?_
    exact (if_neg (by omega)).trans (by rw [BankId.ofNumber_eq_none (.inr hn), badField])

end Sys2Proof.Machine

/-! Proofs: the fault bank requests (R158, R166 to R168). -/

namespace Sys2Proof.Machine

/-! ### FAULT_ACK (R166) -/

section Acknowledge

variable {b : BankId} {s : State}

theorem acknowledge_idle (h : (s.bank b).hold = none) : acknowledge b s = s :=
  if_neg (by rw [h]; exact Bool.noConfusion)

theorem acknowledge_pending (h : (s.bank b).hold.isSome = true) :
    acknowledge b s = holdRemove (.fault b) (setBank b { s.bank b with hold := none } s) := if_pos h

theorem answerFaultAck_bank {n : Nat} (h : BankId.ofNumber n = some b) :
    answerFaultAck n s =
      .accepted (beBool ((acknowledge b s).bank b).hold.isSome ++ be1 (acknowledge b s).hlu.effective.code)
        (acknowledge b s) := by
  simp only [answerFaultAck, h]

end Acknowledge

/-- Settles O57: an acknowledged bank's entry is a removal from the hold set, which reaches no other bank. -/
theorem faultAckReleasesBank : Obligations.FaultAckReleasesBank := by
  intro tag bank s hfree f u
  refine ⟨fun hn => request_refuses hfree rfl ?unknown, fun b hb => ⟨fun hidle => ?idle, fun hpending => ?pending⟩⟩
  case unknown => simp only [answer, answerFaultAck, BankId.ofNumber_eq_none hn, badField]
  case idle =>
    have hidle' : (u.bank b).hold = none := by rw [taken_bank, hidle]
    have ha : answer .p1 (.faultAck bank) u = .accepted (be1 0 ++ be1 s.hlu.effective.code) u := by
      refine (answerFaultAck_bank hb).trans ?_
      rw [acknowledge_idle hidle', hidle', taken_hlu]
      rfl
    exact request_accepts hfree rfl ha
  case pending =>
    have hu : u.bank b = s.bank b := taken_bank ..
    have hx := acknowledge_pending (by rw [hu]; exact hpending)
    obtain ⟨untouched, others, gone, -⟩ := holdRemove_content (id := .fault b) HoldId.noConfusion
      (setBank b { u.bank b with hold := none } u)
    have ev := holdRemove_event (.fault b) (setBank b { u.bank b with hold := none } u)
    rw [← hx] at untouched others gone ev
    have hown : (acknowledge b u).bank b = { s.bank b with hold := none } := by
      rw [bank_congr untouched.fbu, setBank_bank_self, hu]
    have ha := answerFaultAck_bank (s := u) hb
    rw [hown] at ha
    refine ⟨acknowledge b u, request_accepts hfree rfl ha, hown, fun x hx => ?_, gone, fun i h1 h2 => ?_, ?_, ?_, ?_, ?_, ?_⟩
    · rw [bank_congr untouched.fbu, setBank_bank_other u hx, taken_bank]
    · rw [others i h1 h2, setBank_hold, taken_hold]
    · rw [untouched.pim, setBank_pim, taken_pim]
    · rw [untouched.cru, setBank_cru, taken_cru]
    · rw [ev.ptr, setBank_ptr, taken_ptr]
    · rw [ev.wmn, setBank_wmn, taken_wmn]
    · rw [ev.cfs, setBank_cfs, taken_cfs]

/-! ### FAULT_CLEAR (R167) -/

/-- Settles O58. -/
theorem faultClearEmptiesRecord : Obligations.FaultClearEmptiesRecord := by
  intro tag bank s hfree f u
  refine ⟨fun hn => request_refuses hfree rfl ?unknown, fun b hb =>
    ⟨fun hpending => request_refuses hfree rfl ?pending, fun hidle => request_accepts hfree rfl ?idle⟩⟩
  case unknown => simp only [answer, answerFaultClear, BankId.ofNumber_eq_none hn, badField]
  case pending => simp only [answer, answerFaultClear, hb, taken_bank, hpending, ↓reduceIte, wrongState]
  case idle =>
    simp only [answer, answerFaultClear, hb, taken_bank, hidle, Option.isSome_none, Bool.false_eq_true, ↓reduceIte]
    rfl

/-! ### COUNTER_CLEAR (R168) -/

/-- Settles O59. -/
theorem counterClearZeroesCounter : Obligations.CounterClearZeroesCounter := by
  intro tag bank s hfree f u
  refine ⟨fun hn => request_refuses hfree rfl ?unknown, fun b hb => request_accepts hfree rfl ?known⟩
  case unknown => simp only [answer, answerCounterClear, BankId.ofNumber_eq_none hn, badField]
  case known =>
    simp only [answer, answerCounterClear, hb, taken_bank]
    rfl

/-! ### FAULT_MASK (R158) -/

/-- A code found by its number has that number. -/
theorem FaultCode.number_of_ofNumber {n : Nat} {c : FaultCode} (h : FaultCode.ofNumber n = some c) : c.number = n := by
  unfold FaultCode.ofNumber at h
  split at h
  · cases h
  · have hlt : n - 1 < 24 := (List.getElem?_eq_some_iff.mp h).1
    have hall : ∀ i < 24, ∀ x, allFaultCodes[i]? = some x → x.number = i + 1 := by decide
    have := hall _ hlt c h
    omega

/-- A bit of a bank's mask after FAULT_MASK (R158). -/
theorem maskedWith_bit (m : BitVec 32) (c : FaultCode) (on : Bool) {i : Nat} (hi : i < 32) :
    (maskedWith m c on).getLsbD i = if i + 1 = c.number then on else m.getLsbD i := by
  have hbit : (BitVec.ofNat 32 (1 <<< (c.number - 1))).getLsbD i = decide (i + 1 = c.number) := by
    have hpos : 1 ≤ c.number := by cases c <;> decide
    rw [BitVec.getLsbD_ofNat, Nat.one_shiftLeft, Nat.testBit_two_pow]
    simp only [hi, decide_true, Bool.true_and, decide_eq_decide]
    omega
  unfold maskedWith
  cases on <;> by_cases h : i + 1 = c.number <;> simp [hi, h, hbit, -BitVec.getLsbD_eq_getElem]

section Mask

variable {n code mask : Nat} {b : BankId} {c : FaultCode} {s : State}

theorem answerFaultMask_unknownBank (hb : BankId.ofNumber n = none) : answerFaultMask n code mask s = .refused .badField 1 := by
  simp only [answerFaultMask, hb, badField]

theorem answerFaultMask_unknownCode (hb : BankId.ofNumber n = some b) (hc : FaultCode.ofNumber code = none) :
    answerFaultMask n code mask s = .refused .badField 2 := by
  simp only [answerFaultMask, hb, hc, badField]

theorem answerFaultMask_foreign (hb : BankId.ofNumber n = some b) (hc : FaultCode.ofNumber code = some c)
    (h : c.bank ≠ b ∨ c.scope ≠ .signal) : answerFaultMask n code mask s = .refused .badField 2 := by
  simp only [answerFaultMask, hb, hc, if_pos h, badField]

theorem answerFaultMask_accepted (hb : BankId.ofNumber n = some b) (hc : FaultCode.ofNumber code = some c)
    (h1 : c.bank = b) (h2 : c.scope = .signal) (hm : mask ≤ 1) :
    answerFaultMask n code mask s =
      .accepted (be1 n ++ be4 (maskedWith (s.bank b).mask c (mask == 1)).toNat)
        (setBank b { s.bank b with mask := maskedWith (s.bank b).mask c (mask == 1) } s) := by
  have hok : ¬(c.bank ≠ b ∨ c.scope ≠ .signal) := not_or.mpr ⟨not_not_intro h1, not_not_intro h2⟩
  simp only [answerFaultMask, hb, hc, if_neg hok, if_neg (Nat.not_lt.mpr hm)]

end Mask

/-- Settles O60: both commands are FAULT_MASK with its flag, and the flag is the bit. -/
theorem faultMaskSetsCodeBit : Obligations.FaultMaskSetsCodeBit := by
  intro tag bank code s hfree on command hin f u
  have hcommand : exec command s = requestArrives .p1 tag (.faultMask bank code on) s ∧ on.toNat ≤ 1 ∧
      (on.toNat == 1) = (on == 1) := by
    simp only [List.mem_cons, Prod.mk.injEq, List.not_mem_nil, or_false] at hin
    rcases hin with ⟨rfl, rfl⟩ | ⟨rfl, rfl⟩ <;> exact ⟨rfl, by decide, rfl⟩
  obtain ⟨hexec, hflag, hon⟩ := hcommand
  rw [hexec]
  refine ⟨fun hn => request_refuses hfree rfl (answerFaultMask_unknownBank (BankId.ofNumber_eq_none hn)), fun b hb =>
    ⟨fun hc => request_refuses hfree rfl (answerFaultMask_unknownCode hb hc), fun c hc =>
      ⟨fun h => request_refuses hfree rfl (answerFaultMask_foreign hb hc h), fun h1 h2 => ?accepted⟩⟩⟩
  case accepted =>
    have ha := answerFaultMask_accepted (s := u) hb hc h1 h2 hflag
    rw [taken_bank] at ha
    refine ⟨_, request_accepts hfree rfl ha, fun i hi => ?_⟩
    rw [maskedWith_bit _ _ _ hi, FaultCode.number_of_ofNumber hc, hon]

end Sys2Proof.Machine

/-! Proofs: run-enable, the factor flag and the service states (R27, R97, R148). -/

namespace Sys2Proof.Machine

/-! ### RUN (R27) -/

section Run

variable {s : State}

theorem answerRun_on (h : s.cfs.device = .service) :
    answerRun 1 s =
      .accepted (be1 1 ++ be1 s.roc.rotation.code) { s with roc := { s.roc with runEnable := true } } := by
  rw [answerRun, if_neg (by decide), if_pos rfl, if_pos h]
  rfl

theorem answerRun_on_config (h : s.cfs.device = .config) : answerRun 1 s = .refused .wrongState 0 := by
  rw [answerRun, if_neg (by decide), if_pos rfl, if_neg (by rw [h]; exact Device.noConfusion), wrongState]

theorem answerRun_off :
    answerRun 0 s =
      .accepted (be1 0 ++ be1 s.roc.rotation.code) { s with roc := { s.roc with runEnable := false } } := rfl

end Run

/-- Settles O43. -/
theorem runSetsRunEnable : Obligations.RunSetsRunEnable := by
  intro tag s hfree
  refine ⟨⟨fun hd => ?on, fun hd => request_refuses hfree rfl (answerRun_on_config (by rwa [taken_cfs]))⟩, ?off⟩
  case on =>
    rw [← taken_roc .p1 (requestFrame tag (.run 1)) s]
    exact request_accepts hfree rfl (answerRun_on (by rwa [taken_cfs]))
  case off =>
    rw [← taken_roc .p1 (requestFrame tag (.run 0)) s]
    exact request_accepts hfree rfl answerRun_off

/-! ### FACTOR_CLEAR (R148) -/

theorem GroupId.ofNumber_eq_none {n : Nat} (h : 1 < n) : GroupId.ofNumber n = none := by
  unfold GroupId.ofNumber
  split <;> first | rfl | omega

/-- A group agrees with its entry exactly when the entry stands while the group calls for it (R147). -/
theorem State.groupAgrees.isSome_iff {s : State} {g : GroupId} (h : s.groupAgrees g) :
    (s.hold (.inputs g)).isSome = true ↔
      (s.group g).level ≠ .none ∧ ((s.group g).isMatch = false ∨ (s.group g).factor = true) := by
  have hcalls : (s.group g).calls = true ↔
      (s.group g).level ≠ .none ∧ ((s.group g).isMatch = false ∨ (s.group g).factor = true) := by
    simp [InputGroup.calls]
  rw [← hcalls, ← Option.isSome_map, h]
  split <;> simp_all

theorem judgeInputs_event_cfs (g : GroupId) (s : State) : (judgeInputs g s).ptr = s.ptr ∧ (judgeInputs g s).cfs = s.cfs :=
  have ev := judgeInputs_event g s
  ⟨ev.ptr, ev.cfs⟩

/-- Settles O51: the judged entry agrees with the group whose flag is clear. -/
theorem factorClearJudgesEntry : Obligations.FactorClearJudgesEntry := by
  intro p tag group s hfree f
  have hmay : portMay p (requestKind (.factorClear group)) = true := portMay_desk p (by simp [requestKind])
  refine ⟨fun hn => request_refuses hfree hmay ?unknown, fun g hg => ?known⟩
  case unknown => simp only [answer, answerFactorClear, GroupId.ofNumber_eq_none hn, badField]
  case known =>
    let u := taken p f s
    let cleared := setGroup g { u.group g with factor := false } u
    let t := factorClear g u
    have entry : EntryOf (.inputs g) cleared t := judgeInputs_entryOf g cleared
    have agrees : t.groupAgrees g := judgeInputs_agrees g cleared
    obtain ⟨hptr, hcfs⟩ : t.ptr = cleared.ptr ∧ t.cfs = cleared.cfs := judgeInputs_event_cfs g cleared
    have hown : t.group g = { s.group g with factor := false } := by
      rw [group_congr entry.pim, setGroup_group_self, taken_group]
    have hiff := agrees.isSome_iff
    rw [hown] at hiff
    have ha : answer p (.factorClear group) u = .accepted
        (be1 (matchCode (t.group g).isMatch) ++ beBool (t.group g).factor ++ beBool (t.hold (.inputs g)).isSome) t := by
      simp only [answer, answerFactorClear, hg]
      rfl
    rw [hown] at ha
    refine ⟨t, request_accepts hfree hmay ha, hown, fun x hx => ?_, ?_, by simpa using hiff, ?_, ?_, ?_⟩
    · rw [group_congr entry.pim, setGroup_group_other u hx, taken_group]
    · rw [entry.fbu, setGroup_fbu, taken_fbu]
    · rw [hptr, setGroup_ptr, taken_ptr]
    · rw [entry.wmn, setGroup_wmn, taken_wmn]
    · rw [hcfs, setGroup_cfs, taken_cfs]

/-! ### CABIN_SERVICE (R97) -/

section Service

variable {k : Nat} {s : State}

theorem answerCabinService_badField {d : Nat} (h : k = 0 ∨ s.cfs.geometry.n < k) :
    answerCabinService k d s = .refused .badField 1 := by
  have hk : ¬s.cfs.geometry.hasCabin k = true := by
    rw [Geometry.hasCabin_iff]
    omega
  rw [answerCabinService, if_pos hk, badField]

theorem answerCabinService_accepted {d : Nat} (hk : 1 ≤ k ∧ k ≤ s.cfs.geometry.n) (hd : d = 1 ∨ d = 2) :
    answerCabinService k d s =
      .accepted (be1 (servedCabin (d == 1) (s.cabin k)).service.code ++ be1 (servedCabin (d == 1) (s.cabin k)).suspectCount)
        (serviceChange k (servedCabin (d == 1) (s.cabin k)) .request s) := by
  rw [answerCabinService, if_neg (not_not_intro (Geometry.hasCabin_iff.mpr hk)), if_neg (not_not_intro hd)]

/-- A change of service writes the cabin's record and no other (R97). -/
theorem serviceChange_cabin (c : Cabin) (x : ServiceCause) (j : Nat) :
    (serviceChange k c x s).cabin j = (setCabin k c s).cabin j := by
  unfold serviceChange State.cabin
  dsimp only
  rw [slowJudge_bsq]
  split <;> rfl

end Service

/-- What a service request leaves of a cabin inside 1..N, whichever way it goes. -/
theorem serviceChange_taken {k : Nat} {c : Cabin} {f : Frame} {s : State} (hk : 1 ≤ k) (hl : k ≤ s.bsq.cabins.length) :
    let t := serviceChange k c .request (taken .p1 f s)
    t.cabin k = c ∧ (∀ j, j ≠ k → t.cabin j = s.cabin j) ∧ t.ptr = s.ptr ∧ t.hlu = s.hlu ∧ t.fbu = s.fbu := by
  have ev := serviceChange_plain k c .request (taken .p1 f s)
  obtain ⟨hhlu, hfbu, -⟩ := serviceChange_hlu k c .request (taken .p1 f s)
  refine ⟨?_, fun j hj => ?_, ?_, hhlu.trans (taken_hlu ..), hfbu.trans (taken_fbu ..)⟩
  · rw [serviceChange_cabin]
    exact setCabin_cabin_self _ k c ⟨hk, by rwa [taken_bsq]⟩
  · rw [serviceChange_cabin, setCabin_cabin_other _ c hj, taken_cabin]
  · obtain ⟨_, _, _, _, _, h⟩ := ev
    rw [h]
    exact taken_ptr .p1 f s

/-- Settles O52: IN and OUT are one change of the record with two next records. -/
theorem cabinServiceSetsState : Obligations.CabinServiceSetsState := by
  intro tag cabin s hfree k
  refine ⟨⟨fun hn => request_refuses hfree rfl ?inUnknown, fun h1 h2 hl => ?inKnown⟩,
    ⟨fun hn => request_refuses hfree rfl ?outUnknown, fun h1 h2 hl => ?outKnown⟩⟩
  case inUnknown => exact answerCabinService_badField (by rwa [taken_cfs])
  case outUnknown => exact answerCabinService_badField (by rwa [taken_cfs])
  case inKnown =>
    have ha := answerCabinService_accepted (s := taken .p1 (requestFrame tag (.cabinService cabin 1)) s)
      (by rw [taken_cfs]; exact ⟨h1, h2⟩) (.inl rfl)
    rw [taken_cabin] at ha
    exact ⟨_, request_accepts hfree rfl ha, serviceChange_taken h1 hl⟩
  case outKnown =>
    have ha := answerCabinService_accepted (s := taken .p1 (requestFrame tag (.cabinService cabin 2)) s)
      (by rw [taken_cfs]; exact ⟨h1, h2⟩) (.inr rfl)
    rw [taken_cabin] at ha
    exact ⟨_, request_accepts hfree rfl ha, serviceChange_taken h1 hl⟩

end Sys2Proof.Machine

/-! Proofs: the group queue's requests (R102, R104 to R108). -/

namespace Sys2Proof.Machine

/-! ### GROUP_ADD (R104, R105) -/

section Add

variable {id size mass acc : Nat} {s : State}

/-- The party's mass of a new group: the declared one raised to its floor, or the table's per-person mass (R102, R104). -/
theorem partyMass_newGroup (s : State) (id size mass : Nat) (a : Bool) :
    s.partyMass (s.newGroup id size mass a) =
      if mass = 0 then size * s.cfs.boarding.perPerson else max mass (size * 20) := by
  unfold State.partyMass State.newGroup massFloor
  by_cases h : mass = 0 <;> simp only [h, ↓reduceIte]

theorem answerGroupAdd_refused {r : Reason} {n : Nat} (h : groupAddRefusal id size mass acc s = some (r, n)) :
    answerGroupAdd id size mass acc s = .refused r n := by
  simp only [answerGroupAdd, h]

theorem answerGroupAdd_accepted (h : groupAddRefusal id size mass acc s = none) :
    answerGroupAdd id size mass acc s =
      .accepted
        (be2 id ++ be1 (s.bsq.queue.length + 1) ++ be2 (s.partyMass (s.newGroup id size mass (acc == 1)))
          ++ be1 (s.newGroup id size mass (acc == 1)).source.code)
        (addNotice (s.bsq.queue.length + 1)
          { s with bsq := { s.bsq with queue := s.bsq.queue ++ [s.newGroup id size mass (acc == 1)] } }) := by
  simp only [answerGroupAdd, h]

theorem groupAddRefusal_id (h : id = 0) : groupAddRefusal id size mass acc s = some (.badField, 1) := if_pos h

theorem groupAddRefusal_size (hi : id ≠ 0) (h : size = 0 ∨ 40 < size) :
    groupAddRefusal id size mass acc s = some (.badField, 2) :=
  (if_neg hi).trans (if_pos (by omega))

/-- Past the id and the size, the mass, the flag, the table, the ids held and the room decide (R104). -/
theorem groupAddRefusal_sized (h : id ≠ 0 ∧ 1 ≤ size ∧ size ≤ 40) :
    groupAddRefusal id size mass acc s =
      if 4000 < mass then some (.badField, 3)
      else if 1 < acc then some (.badField, 4)
      else if s.cfs.boarding.capacity < size then some (.badField, 2)
      else if s.cfs.boarding.maxLoad < (if mass = 0 then size * s.cfs.boarding.perPerson else max mass (size * 20)) then
        some (.badField, 3)
      else if id ∈ s.heldIds then some (.duplicateId, 0)
      else if 32 ≤ s.bsq.queue.length then some (.full, 0)
      else none := by
  rw [groupAddRefusal, if_neg h.1, if_neg (not_not_intro h.2), partyMass_newGroup]

/-- Past the ranges of the fields, the table, the ids held and the room decide (R104). -/
theorem groupAddRefusal_ranged (h : (id ≠ 0 ∧ 1 ≤ size ∧ size ≤ 40) ∧ mass ≤ 4000 ∧ acc ≤ 1) :
    groupAddRefusal id size mass acc s =
      if s.cfs.boarding.capacity < size then some (.badField, 2)
      else if s.cfs.boarding.maxLoad < (if mass = 0 then size * s.cfs.boarding.perPerson else max mass (size * 20)) then
        some (.badField, 3)
      else if id ∈ s.heldIds then some (.duplicateId, 0)
      else if 32 ≤ s.bsq.queue.length then some (.full, 0)
      else none := by
  rw [groupAddRefusal_sized h.1, if_neg (by omega), if_neg (by omega)]

/-- The pacing notices carry the count at which they are due (R108). -/
theorem addNotice_eq (n : Nat) (s : State) :
    addNotice n s =
      if n = 16 then notify (.queueHalf 16 s.cfs.clock) s
      else if n = 32 then notify (.queueFull 32 s.cfs.clock) s else s := by
  unfold addNotice
  split
  · next h => rw [h]
  · split
    · next h => rw [h]
    · rfl

end Add

theorem heldIds_taken (p : Port) (f : Frame) (s : State) : (taken p f s).heldIds = s.heldIds := by
  rw [State.heldIds, taken_bsq, State.heldIds]

theorem newGroup_taken (p : Port) (f : Frame) (s : State) (id size mass : Nat) (a : Bool) :
    (taken p f s).newGroup id size mass a = s.newGroup id size mass a := by
  rw [State.newGroup, taken_cfs, State.newGroup]

/-- A flag byte read as a number or as a byte. -/
theorem byte_eq_one (b : Byte) : (b.toNat == 1) = (b == 1) := by
  rw [Bool.eq_iff_iff]
  simp [BitVec.toNat_eq]

/-- Settles O48: the judgement reads the table, the queue and the manifests, which taking the frame leaves. -/
theorem groupAddJoinsTail : Obligations.GroupAddJoinsTail := by
  intro p tag id size mass acc s hfree f u m g sized ranged fields n
  have hmay : portMay p (requestKind (.groupAdd id size mass acc)) = true := portMay_desk p (by simp [requestKind])
  have refused {r : Reason} {k : Nat} (h : groupAddRefusal id.toNat size.toNat mass.toNat acc.toNat u = some (r, k)) :
      exec (.groupAdd p tag id size mass acc) s = refuses p f r k s :=
    request_refuses hfree hmay (answerGroupAdd_refused h)
  have hcfs : u.cfs = s.cfs := taken_cfs ..
  have hbsq : u.bsq = s.bsq := taken_bsq ..
  have hheld : u.heldIds = s.heldIds := heldIds_taken ..
  have judged (h : fields) : groupAddRefusal id.toNat size.toNat mass.toNat acc.toNat u =
      if id.toNat ∈ s.heldIds then some (.duplicateId, 0) else if 32 ≤ s.bsq.queue.length then some (.full, 0) else none := by
    obtain ⟨hr, hcap, hload⟩ := h
    rw [groupAddRefusal_ranged hr, hcfs, hbsq, hheld, if_neg (Nat.not_lt.mpr hcap), if_neg (Nat.not_lt.mpr hload)]
  refine ⟨fun h => refused (groupAddRefusal_id h), fun hi h => refused (groupAddRefusal_size hi h),
    fun hs h => refused ?mass, fun hs hm h => refused ?flag, fun hr h => refused ?capacity,
    fun hr hc h => refused ?load, fun hf h => refused ?duplicate, fun hf hd h => refused ?full, fun hf hd h => ?accepted⟩
  case mass => rw [groupAddRefusal_sized hs, if_pos h]
  case flag => rw [groupAddRefusal_sized hs, if_neg (Nat.not_lt.mpr hm), if_pos h]
  case capacity => rw [groupAddRefusal_ranged hr, hcfs, if_pos h]
  case load => rw [groupAddRefusal_ranged hr, hcfs, if_neg (Nat.not_lt.mpr hc), if_pos h]
  case duplicate => rw [judged hf, if_pos h]
  case full => rw [judged hf, if_neg hd, if_pos h]
  case accepted =>
    have hnone := judged hf
    rw [if_neg hd, if_neg (Nat.not_le.mpr h)] at hnone
    have ha := answerGroupAdd_accepted hnone
    have hg : u.newGroup id.toNat size.toNat mass.toNat (acc.toNat == 1) = g := by
      rw [newGroup_taken, byte_eq_one]
      rfl
    have hm : u.partyMass g = m := by
      rw [← hg, partyMass_newGroup, hcfs]
    rw [hg, hm] at ha
    have hn : u.bsq.queue.length + 1 = n := by rw [hbsq]
    rw [hn] at ha
    rw [addNotice_eq] at ha
    rw [← hcfs]
    exact request_accepts hfree hmay ha

/-! ### GROUP_WITHDRAW (R106) -/

section Withdraw

variable {id : Nat} {s : State}

/-- The first record with an id is found at its place. -/
theorem findIdx_first {pre post : List Group} {g : Group} (hg : g.id = id) (hpre : id ∉ pre.map Group.id) :
    (pre ++ g :: post).findIdx? (fun x => x.id == id) = some pre.length := by
  induction pre with
  | nil => simp [List.findIdx?_cons, hg]
  | cons x xs ih =>
    simp only [List.map_cons, List.mem_cons, not_or] at hpre
    have hx : (x.id == id) = false := by simpa using Ne.symm hpre.1
    simp [List.findIdx?_cons, hx, ih hpre.2]

theorem answerGroupWithdraw_unknown (h0 : id ≠ 0) (h : id ∉ s.bsq.queue.map Group.id) :
    answerGroupWithdraw id s = .refused .unknownId 0 := by
  have hnone : s.bsq.queue.findIdx? (fun g => g.id == id) = none := by
    rw [List.findIdx?_eq_none_iff]
    intro g hg
    have : g.id ≠ id := fun e => h (e ▸ List.mem_map_of_mem hg)
    simpa using this
  simp only [answerGroupWithdraw, if_neg h0, hnone]

theorem answerGroupWithdraw_accepted {pre post : List Group} {g : Group} (hq : s.bsq.queue = pre ++ g :: post)
    (h0 : id ≠ 0) (hg : g.id = id) (hpre : id ∉ pre.map Group.id) :
    answerGroupWithdraw id s =
      .accepted (be1 (pre.length + 1) ++ be1 (pre ++ post).length)
        (if pre ++ post = [] then notify (.queueEmpty 0 s.cfs.clock) { s with bsq := { s.bsq with queue := pre ++ post } }
          else { s with bsq := { s.bsq with queue := pre ++ post } }) := by
  have hidx := findIdx_first (post := post) hg hpre
  have herase : (pre ++ g :: post).eraseIdx pre.length = pre ++ post := by
    rw [List.eraseIdx_append_of_length_le (Nat.le_refl _), Nat.sub_self, List.eraseIdx_cons_zero]
  simp only [answerGroupWithdraw, if_neg h0, hq, hidx, herase]

end Withdraw

/-- Settles O49. -/
theorem groupWithdrawRemovesRecord : Obligations.GroupWithdrawRemovesRecord := by
  intro p tag id s hfree f u
  have hmay : portMay p (requestKind (.groupWithdraw id)) = true := portMay_desk p (by simp [requestKind])
  have hbsq : u.bsq = s.bsq := taken_bsq ..
  refine ⟨fun h => request_refuses hfree hmay (if_pos h), fun h0 h => request_refuses hfree hmay ?unknown,
    fun pre g post hq h0 hg hpre => ?known⟩
  case unknown => exact answerGroupWithdraw_unknown h0 (by rwa [taken_bsq])
  case known =>
    rw [← taken_cfs p f s]
    exact request_accepts hfree hmay (answerGroupWithdraw_accepted (by rwa [taken_bsq]) h0 hg hpre)

end Sys2Proof.Machine

/-! Proofs: the wind profiles' requests (R127, R128). -/

namespace Sys2Proof.Machine

theorem ProfileId.ofNumber_eq_none {n : Nat} (h : 1 < n) : ProfileId.ofNumber n = none := by
  unfold ProfileId.ofNumber
  split <;> first | rfl | omega

theorem ProfileId.number_of_ofNumber {n : Nat} {id : ProfileId} (h : ProfileId.ofNumber n = some id) : id.number = n := by
  unfold ProfileId.ofNumber at h
  split at h <;> cases h <;> rfl

/-! ### WIND_PROFILE_WRITE (R127) -/

section Write

variable {n : Nat} {vs : List Nat} {id : ProfileId} {s : State}

theorem answerProfileWrite_unknown (h : ProfileId.ofNumber n = none) : answerProfileWrite n vs s = .refused .badField 1 := by
  simp only [answerProfileWrite, h, badField]

theorem answerProfileWrite_operative (h : ProfileId.ofNumber n = some id) (ho : s.wmn.operative = id) :
    answerProfileWrite n vs s = .refused .wrongState 0 := by
  simp only [answerProfileWrite, h, if_pos ho, wrongState]

theorem answerProfileWrite_range {i : Nat} (h : ProfileId.ofNumber n = some id) (ho : s.wmn.operative ≠ id)
    (hr : profileRangeFailure 0 vs = some i) : answerProfileWrite n vs s = .refused .badField (i + 2) := by
  simp only [answerProfileWrite, h, if_neg ho, hr, badField]

theorem answerProfileWrite_relation {i : Nat} (h : ProfileId.ofNumber n = some id) (ho : s.wmn.operative ≠ id)
    (hr : profileRangeFailure 0 vs = none) (hl : profileRelationFailure vs = some i) :
    answerProfileWrite n vs s = .refused .badField (i + 2) := by
  simp only [answerProfileWrite, h, if_neg ho, hr, hl, badField]

theorem answerProfileWrite_accepted (h : ProfileId.ofNumber n = some id) (ho : s.wmn.operative ≠ id)
    (hr : profileRangeFailure 0 vs = none) (hl : profileRelationFailure vs = none) :
    answerProfileWrite n vs s = .accepted (be1 n) { s with wmn := s.wmn.putProfile id (profileOf vs) } := by
  simp only [answerProfileWrite, h, if_neg ho, hr, hl]

end Write

/-- Settles O55. -/
theorem profileWriteReplacesOther : Obligations.ProfileWriteReplacesOther := by
  intro tag profile values s hfree hlen f u vs
  have hw : (Request.windProfileWrite profile values).wellFormed = true := beq_iff_eq.mpr hlen
  have hop : u.wmn.operative = s.wmn.operative := congrArg Wmn.operative (taken_wmn ..)
  refine ⟨fun hn => request_refuses hfree rfl (answerProfileWrite_unknown (ProfileId.ofNumber_eq_none hn)) hw,
    fun id hid => ⟨fun ho => request_refuses hfree rfl (answerProfileWrite_operative hid (hop.trans ho)) hw, fun ho => ?_⟩⟩
  have ho : u.wmn.operative ≠ id := by rwa [hop]
  exact ⟨fun i hi => request_refuses hfree rfl (answerProfileWrite_range hid ho hi) hw,
    fun hr i hi => request_refuses hfree rfl (answerProfileWrite_relation hid ho hr hi) hw,
    fun hr hl => request_accepts hfree rfl (answerProfileWrite_accepted hid ho hr hl) hw⟩

/-! ### WIND_PROFILE_SELECT (R128) -/

theorem windLevel_code_max (a b : WindLevel) : (a.max b).code = max a.code b.code := by
  cases a <;> cases b <;> rfl

theorem WindLevel.code_inj {a b : WindLevel} (h : a.code = b.code) : a = b := by
  cases a <;> cases b <;> first | rfl | cases h

section Select

variable {id : ProfileId} {s : State}

theorem answerProfileSelect_known {n : Nat} (h : ProfileId.ofNumber n = some id) :
    answerProfileSelect n s =
      .accepted (be1 (selectProfile id s).wmn.operative.number ++ be1 (selectProfile id s).wmn.level.code)
        (selectProfile id s) := by
  simp only [answerProfileSelect, h]

theorem selectProfile_operative (h : s.wmn.operative = id) : selectProfile id s = s := if_pos h

/-- A selection leaves the level, and then nothing else, or raises it and hands its entry over (R128, R131). -/
theorem selectProfile_other (h : s.wmn.operative ≠ id) :
    selectProfile id s =
      if (s.wmn.selected id).level = s.wmn.level then { s with wmn := s.wmn.selected id }
      else windHandOver (some s.wmn.level) .select { s with wmn := s.wmn.selected id } := if_neg h

theorem selectProfile_wmn (h : s.wmn.operative ≠ id) : (selectProfile id s).wmn = s.wmn.selected id := by
  rw [selectProfile_other h]
  split
  · rfl
  · exact (windHandOver_entryOf ..).wmn

/-- The level after a selection: the greatest of the old, the warranted and the floor level (R128). -/
theorem selected_level (w : Wmn) (id : ProfileId) :
    (w.selected id).level.code =
      max (max w.level.code ((w.profile id).warranted w.gust w.mean).code) w.floorLevel.code := by
  simp only [Wmn.selected, Wmn.calmRestart, windLevel_code_max]

/-- The Wind Monitor after a selection, with its calm timer restarted (R128). -/
theorem selected_eq (w : Wmn) (id : ProfileId) :
    w.selected id = { w with
      operative := id, level := (w.selected id).level, warranted := (w.profile id).warranted w.gust w.mean, calm := 0,
      calmRuns := decide ((w.selected id).level ≠ .calm) } := by
  have hruns : (w.selected id).calmRuns = decide ((w.selected id).level ≠ .calm) := by
    rw [decide_not, ← Bool.beq_eq_decide_eq]
    rfl
  rw [← hruns]
  rfl

end Select

/-! ### The wind's hand-over (R131) -/

/-- A level above CALM that is handed over has its entry at the present time. -/
theorem windHandOver_hold {s : State} (p : Option WindLevel) (c : WindCause) (h : s.wmn.level ≠ .calm) :
    (windHandOver p c s).hold .wind = some { id := .wind, level := s.wmn.level.hold, time := s.cfs.clock } :=
  (holdInsert_content (WindLevel.hold_ne_none h) HoldId.noConfusion s).2.2.1

/-- CALM handed over takes the entry out. -/
theorem windHandOver_hold_calm {s : State} (p : Option WindLevel) (c : WindCause) (h : s.wmn.level = .calm) :
    (windHandOver p c s).hold .wind = none := by
  have hl : s.wmn.level.hold = .none := by rw [h]; rfl
  show (holdInsert .wind s.wmn.level.hold s).hold .wind = none
  rw [holdInsert, if_pos hl]
  exact (holdRemove_content HoldId.noConfusion s).2.2.1

theorem windHandOver_event_parts (p : Option WindLevel) (c : WindCause) (s : State) :
    (windHandOver p c s).ptr = s.ptr ∧ (windHandOver p c s).cfs = s.cfs ∧ (windHandOver p c s).time = s.time :=
  have ev := holdInsert_wind s.wmn.level.hold s
  ⟨ev.ptr, ev.cfs, ev.time⟩

/-- Settles O56: a selection that changes the level raises it, so what it hands over is an insertion. -/
theorem profileSelectTakesForce : Obligations.ProfileSelectTakesForce := by
  intro tag profile s hfree f u
  refine ⟨fun hn => request_refuses hfree rfl ?unknown, fun id hid => ⟨fun ho => ?same, fun ho => ?other⟩⟩
  case unknown => simp only [answer, answerProfileSelect, ProfileId.ofNumber_eq_none hn, badField]
  case same =>
    have ha := answerProfileSelect_known (s := u) hid
    rw [selectProfile_operative (by rw [taken_wmn, ho]), show u.wmn = s.wmn from taken_wmn .., ho,
      ProfileId.number_of_ofNumber hid] at ha
    exact request_accepts hfree rfl ha
  case other =>
    have hu : u.wmn = s.wmn := taken_wmn ..
    have ho' : u.wmn.operative ≠ id := by rwa [hu]
    have hsel := selectProfile_other ho'
    have hw := selectProfile_wmn ho'
    have hlevel := selected_level s.wmn id
    have ha := answerProfileSelect_known (s := u) hid
    rw [hw, show (u.wmn.selected id).operative.number = profile.toNat from ProfileId.number_of_ofNumber hid, ← hw] at ha
    rw [hu] at hsel hw
    refine ⟨selectProfile id u, request_accepts hfree rfl ha, ?_, ?_, fun hs => ?_, fun hne => ?_, fun i h1 h2 => ?_, ?_⟩
    · rw [hw, hlevel]
    · rw [hw]
      exact selected_eq s.wmn id
    · rw [hw] at hs
      rw [hsel, if_pos hs]
    · rw [hw] at hne ⊢
      rw [hsel, if_neg hne]
      have hup : (s.wmn.selected id).level ≠ .calm := by
        intro hc
        rw [hc] at hlevel
        have h0 : s.wmn.level.code ≤ WindLevel.calm.code := by omega
        refine hne (hc.trans (WindLevel.code_inj ?_))
        have : WindLevel.calm.code = 0 := rfl
        omega
      refine (windHandOver_hold _ _ hup).trans ?_
      rw [show ({ u with wmn := s.wmn.selected id } : State).cfs = s.cfs from taken_cfs .p1 f s]
    · rw [hsel]
      split
      · exact taken_hold .p1 f s i
      · exact ((windHandOver_entryOf ..).hold i h1 h2).trans (taken_hold .p1 f s i)
    · rw [hsel]
      split
      · exact ⟨taken_ptr .p1 f s, taken_cfs .p1 f s⟩
      · obtain ⟨hp, hc, -⟩ := windHandOver_event_parts (some s.wmn.level) .select { u with wmn := s.wmn.selected id }
        exact ⟨hp.trans (taken_ptr .p1 f s), hc.trans (taken_cfs .p1 f s)⟩

end Sys2Proof.Machine

/-! Proofs: the wind samples (R118 to R132). -/

namespace Sys2Proof.Machine

/-! ### A channel's sample, gust and mean (R119, R120, R121) -/

section Sample

variable {c : ChannelRec}

theorem listSum_eq (l : List Nat) : listSum l = l.sum := List.sum_eq_foldl.symm

theorem ringPush_short {ring : List Nat} {v : Nat} (h : ring.length < 12) : ringPush ring v = ring ++ [v] := by
  rw [ringPush, Nat.sub_eq_zero_of_le (by omega), List.drop_zero]

theorem ringPush_full {ring : List Nat} {v : Nat} (h : ring.length = 12) : ringPush ring v = ring.tail ++ [v] := by
  rw [ringPush, h, show 12 + 1 - 12 = 1 from rfl, List.drop_one, List.tail_append_of_ne_nil]
  rintro rfl
  cases h

/-- The newest sample of a ring is the one that has joined it. -/
theorem getLastD_ringPush (ring : List Nat) (v : Nat) : (ringPush ring v).getLastD 0 = v := by
  rw [ringPush, List.drop_append_of_le_length (by omega), List.getLastD_eq_getLast?, List.getLast?_append]
  rfl

theorem sampled_disabled (h : c.enable = false) : c.sampled = { c with pulses := 0 } := by
  rw [ChannelRec.sampled, h]
  rfl

/-- An enabled channel between means: the sample's ring and gust, and one more sample counted. -/
theorem sampled_counted (h : c.enable = true) (hn : c.sampleCount ≠ 3) :
    c.sampled = { c with
      ring := ringPush c.ring (min 800 c.rawSample), gust := (ringPush c.ring (min 800 c.rawSample)).sum / 12,
      clamped := decide (800 < c.rawSample), pulses := 0, sampleCount := c.sampleCount + 1 } := by
  rw [ChannelRec.sampled, if_pos h, ChannelRec.meaned, if_neg (by simpa using hn), listSum_eq]

/-- An enabled channel at its fourth sample: the mean register takes the newest four samples. -/
theorem sampled_meaned (h : c.enable = true) (hn : c.sampleCount = 3) :
    let ring := ringPush c.ring (min 800 c.rawSample)
    c.sampled = { c with
      ring := ring, gust := ring.sum / 12, clamped := decide (800 < c.rawSample), pulses := 0, sampleCount := 0,
      meanQ := meanUpdate c.initialised c.meanQ ring, initialised := true,
      mean := meanUpdate c.initialised c.meanQ ring / 256 } := by
  rw [ChannelRec.sampled, if_pos h, ChannelRec.meaned, if_pos (by simp [hn]), listSum_eq]

theorem meanUpdate_first (q : Nat) (ring : List Nat) :
    meanUpdate false q ring = (ring.drop (ring.length - 4)).sum / 4 * 256 := by
  rw [meanUpdate, listSum_eq]
  rfl

theorem meanUpdate_next (q : Nat) (ring : List Nat) :
    meanUpdate true q ring =
      ((q : Int) + (((ring.drop (ring.length - 4)).sum / 4 * 256 : Nat) - (q : Int)) / 512).toNat := by
  rw [meanUpdate, listSum_eq]
  rfl

/-- A sample leaves a channel's setting, validity and runs to the judgement (R118). -/
theorem sampled_kept (c : ChannelRec) :
    c.sampled.enable = c.enable ∧ c.sampled.kc = c.kc ∧ c.sampled.validity = c.validity ∧
      c.sampled.zeroRun = c.zeroRun ∧ c.sampled.recoveryRun = c.recoveryRun ∧ c.sampled.pulses = 0 := by
  unfold ChannelRec.sampled ChannelRec.meaned
  split
  · dsimp only
    split <;> exact ⟨rfl, rfl, rfl, rfl, rfl, rfl⟩
  · exact ⟨rfl, rfl, rfl, rfl, rfl, rfl⟩

theorem sampled_ring (h : c.enable = true) : c.sampled.ring = ringPush c.ring (min 800 c.rawSample) := by
  by_cases hn : c.sampleCount = 3
  · rw [sampled_meaned h hn]
  · rw [sampled_counted h hn]

/-- The newest sample is 0 exactly when the raw one is. -/
theorem sampled_latest_eq_zero (h : c.enable = true) : c.sampled.latest = 0 ↔ c.rawSample = 0 := by
  rw [ChannelRec.latest, sampled_ring h, getLastD_ringPush]
  omega

end Sample

/-! ### The channels after a sample (R122, R123) -/

section Channels

variable {c : ChannelRecs} {ch : Channel}

@[simp] theorem sampled_get (c : ChannelRecs) (ch : Channel) : c.sampled.get ch = (c.get ch).sampled := by
  cases ch <;> rfl

@[simp] theorem judged_get (c : ChannelRecs) (ch : Channel) : c.judged.get ch = c.judge ch := by
  cases ch <;> rfl

/-- The judgement of plausibility touches the runs and the validity alone. -/
theorem judge_eq (c : ChannelRecs) (ch : Channel) :
    ∃ z v r, c.judge ch = { c.get ch with zeroRun := z, validity := v, recoveryRun := r } := by
  unfold ChannelRecs.judge
  dsimp only
  split
  · split
    · split <;> exact ⟨_, _, _, rfl⟩
    · split <;> exact ⟨_, _, _, rfl⟩
    · exact ⟨_, _, _, rfl⟩
  · exact ⟨_, _, _, rfl⟩

theorem judge_gust (c : ChannelRecs) (ch : Channel) : (c.judge ch).gust = (c.get ch).gust := by
  obtain ⟨_, _, _, h⟩ := judge_eq c ch
  rw [h]

theorem judge_failing (h : c.failing ch = true) :
    c.judge ch = { c.get ch with zeroRun := c.zeroRunAfter ch, validity := .implausible, recoveryRun := 0 } := by
  have h' := h
  simp only [ChannelRecs.failing, Bool.and_eq_true, beq_iff_eq] at h'
  obtain ⟨⟨he, hv⟩, -⟩ := h'
  simp only [ChannelRecs.judge, he, hv, h, ↓reduceIte]

theorem judge_valid (he : (c.get ch).enable = true) (hv : (c.get ch).validity = .valid) (h : c.failing ch = false) :
    c.judge ch = { c.get ch with zeroRun := c.zeroRunAfter ch } := by
  simp only [ChannelRecs.judge, he, hv, h, ↓reduceIte, Bool.false_eq_true]

theorem judge_recovering (h : c.recovering ch = true) :
    c.judge ch = { c.get ch with recoveryRun := (c.get ch).recoveryRunAfter, validity := .valid, zeroRun := 0 } := by
  have h' := h
  simp only [ChannelRecs.recovering, Bool.and_eq_true, beq_iff_eq] at h'
  obtain ⟨⟨he, hv⟩, -⟩ := h'
  simp only [ChannelRecs.judge, he, hv, h, ↓reduceIte]

theorem judge_implausible (he : (c.get ch).enable = true) (hv : (c.get ch).validity = .implausible)
    (h : c.recovering ch = false) : c.judge ch = { c.get ch with recoveryRun := (c.get ch).recoveryRunAfter } := by
  simp only [ChannelRecs.judge, he, hv, h, ↓reduceIte, Bool.false_eq_true]

end Channels

/-! ### The wind level after a sample (R125, R129, R130) -/

section Level

variable {w : Wmn}

theorem floored_level (w : Wmn) : w.floored.level.code = max w.level.code w.floorLevel.code := by
  unfold Wmn.floored
  split
  · next h => exact (Nat.max_eq_right (Nat.le_of_lt h)).symm
  · next h => exact (Nat.max_eq_left (Nat.not_lt.mp h)).symm

theorem floored_low (h : w.floorLevel.code ≤ w.level.code) : w.floored = w := if_neg (Nat.not_lt.mpr h)

theorem levelled_rise (h : w.level.code < w.warranted.code) :
    w.levelled = Wmn.calmRestart { w with level := w.warranted } := if_pos h

theorem calmExpires_iff :
    w.calmExpires = true ↔ w.level ≠ .calm ∧ w.warranted.code ≤ w.level.code ∧
      (w.gust < (w.profileInForce.thresholds w.level).exitGust ∧ w.mean < (w.profileInForce.thresholds w.level).exitMean) ∧
      4 * w.profileInForce.calmPeriod ≤ w.calm + 1 := by
  simp [Wmn.calmExpires, Wmn.calmSample, and_assoc]

theorem levelled_fall (he : w.calmExpires = true) (h : w.floorLevel.code < w.level.code) :
    w.levelled = Wmn.calmRestart { w with level := w.level.below } := by
  obtain ⟨hc, hw, -⟩ := calmExpires_iff.mp he
  rw [Wmn.levelled, if_neg (Nat.not_lt.mpr hw), if_neg hc, if_pos he, if_pos h]

theorem levelled_kept (he : w.calmExpires = true) (h : w.level.code ≤ w.floorLevel.code) : w.levelled = w.calmRestart := by
  obtain ⟨hc, hw, -⟩ := calmExpires_iff.mp he
  rw [Wmn.levelled, if_neg (Nat.not_lt.mpr hw), if_neg hc, if_pos he, if_neg (Nat.not_lt.mpr h)]

theorem levelled_calm (hw : w.warranted.code ≤ w.level.code) (h : w.level = .calm) : w.levelled = w := by
  rw [Wmn.levelled, if_neg (Nat.not_lt.mpr hw), if_pos h]

theorem levelled_runs (hw : w.warranted.code ≤ w.level.code) (h : w.level ≠ .calm) (he : w.calmExpires = false) :
    w.levelled = { w with calm := if w.calmSample then w.calm + 1 else 0 } := by
  rw [Wmn.levelled, if_neg (Nat.not_lt.mpr hw), if_neg h, he]
  simp only [Bool.false_eq_true, ↓reduceIte]
  split <;> rfl

/-- Step 5 changes the level and the calm timer alone (R129, R130). -/
theorem levelled_eq (w : Wmn) : ∃ l c r, w.levelled = { w with level := l, calm := c, calmRuns := r } := by
  unfold Wmn.levelled
  repeat' split
  all_goals exact ⟨_, _, _, rfl⟩

/-- Step 6 changes the level and the calm timer alone (R125). -/
theorem floored_eq (w : Wmn) : ∃ l c r, w.floored = { w with level := l, calm := c, calmRuns := r } := by
  unfold Wmn.floored
  split <;> exact ⟨_, _, _, rfl⟩

/-- The Wind Monitor after a sample, but for the level and the calm timer (R118). -/
theorem sampleAfter_eq (w : Wmn) :
    ∃ l c r, w.sampleAfter = { w.observed with level := l, calm := c, calmRuns := r, warmUp := min 240 (w.warmUp + 1) } := by
  obtain ⟨l, c, r, hl⟩ := levelled_eq w.observed
  obtain ⟨l', c', r', hf⟩ := floored_eq w.observed.levelled
  refine ⟨l', c', r', ?_⟩
  rw [Wmn.sampleAfter, hf, hl]
  rfl

theorem calmRestart_runs (w : Wmn) : w.calmRestart.calm = 0 ∧ w.calmRestart.calmRuns = decide (w.level ≠ .calm) := by
  refine ⟨rfl, ?_⟩
  rw [decide_not, ← Bool.beq_eq_decide_eq]
  rfl

theorem WindLevel.code_below {l : WindLevel} (h : l ≠ .calm) : l.below.code + 1 = l.code := by
  cases l <;> first | rfl | exact (h rfl).elim

/-- The level and the calm timer after steps 5 and 6, from the levels of the sample and the calm period's expiry. -/
theorem level_after_sample (w : Wmn) :
    let v := w.levelled.floored
    (w.calmExpires = true → w.floorLevel.code < w.level.code → v.level.code + 1 = w.level.code) ∧
    (¬(w.calmExpires = true ∧ w.floorLevel.code < w.level.code) →
      v.level.code = max (max w.level.code w.warranted.code) w.floorLevel.code) ∧
    (v.level ≠ w.level ∨ w.calmExpires = true → v.calm = 0 ∧ v.calmRuns = decide (v.level ≠ .calm)) ∧
    (v.level = w.level → w.calmExpires = false → v.calmRuns = w.calmRuns ∧ (w.level = .calm → v.calm = w.calm) ∧
      (w.level ≠ .calm → w.calmSample = true → v.calm = w.calm + 1) ∧
      (w.level ≠ .calm → w.calmSample = false → v.calm = 0)) := by
  intro v
  by_cases hrise : w.level.code < w.warranted.code
  · -- a rise: the calm timer starts again, whether the floor raises the level further or not
    have he : w.calmExpires = false := by
      rw [← Bool.not_eq_true, calmExpires_iff]
      omega
    have hl := levelled_rise hrise
    have hcode : v.level.code = max w.warranted.code w.floorLevel.code := by rw [floored_level, hl]; rfl
    have hruns : v.calm = 0 ∧ v.calmRuns = decide (v.level ≠ .calm) := by
      simp only [v, Wmn.floored, hl]
      split <;> exact calmRestart_runs _
    refine ⟨fun h => absurd h (by simp [he]), fun _ => by omega, fun _ => hruns, fun h => ?_⟩
    rw [h] at hcode
    omega
  · have hw : w.warranted.code ≤ w.level.code := Nat.not_lt.mp hrise
    by_cases hfloor : w.level.code < w.floorLevel.code
    · -- below the floor: the floor gives the level, and the calm timer starts again
      have hx : w.levelled.level = w.level ∧ w.levelled.floorLevel = w.floorLevel := by
        by_cases he : w.calmExpires = true
        · rw [levelled_kept he (Nat.le_of_lt hfloor)]
          exact ⟨rfl, rfl⟩
        · by_cases hc : w.level = .calm
          · rw [levelled_calm hw hc]
            exact ⟨rfl, rfl⟩
          · rw [levelled_runs hw hc (by simpa using he)]
            exact ⟨rfl, rfl⟩
      have hv : v = Wmn.calmRestart { w.levelled with level := w.levelled.floorLevel } :=
        if_pos (by rw [hx.1, hx.2]; exact hfloor)
      have hcode : v.level.code = w.floorLevel.code := by rw [hv, ← hx.2]; rfl
      refine ⟨fun _ h => by omega, fun _ => by omega, fun _ => by rw [hv]; exact calmRestart_runs _, fun h => ?_⟩
      rw [h] at hcode
      omega
    · have hf : w.floorLevel.code ≤ w.level.code := Nat.not_lt.mp hfloor
      by_cases he : w.calmExpires = true
      · obtain ⟨hc, -⟩ := calmExpires_iff.mp he
        by_cases hlt : w.floorLevel.code < w.level.code
        · -- a fall
          have hbelow := WindLevel.code_below hc
          have hl := levelled_fall he hlt
          have hv : v = Wmn.calmRestart { w with level := w.level.below } := by
            show w.levelled.floored = _
            rw [hl]
            exact floored_low (by show w.floorLevel.code ≤ w.level.below.code; omega)
          have hlevel : v.level = w.level.below := by rw [hv]; rfl
          refine ⟨fun _ _ => by rw [hlevel]; exact hbelow, fun h => absurd ⟨he, hlt⟩ h,
            fun _ => by rw [hv]; exact calmRestart_runs _, fun _ h => absurd (he.symm.trans h) Bool.noConfusion⟩
        · -- an expiry that the floor stops
          have hv : v = w.calmRestart := by
            show w.levelled.floored = _
            rw [levelled_kept he (Nat.not_lt.mp hlt)]
            exact floored_low hf
          have hlevel : v.level = w.level := by rw [hv]; rfl
          refine ⟨fun _ h => absurd h hlt, fun _ => by rw [hlevel]; omega, fun _ => by rw [hv]; exact calmRestart_runs _,
            fun _ h => absurd (he.symm.trans h) Bool.noConfusion⟩
      · have he' : w.calmExpires = false := by simpa using he
        by_cases hc : w.level = .calm
        · have hv : v = w := by
            show w.levelled.floored = _
            rw [levelled_calm hw hc, floored_low hf]
          rw [hv]
          exact ⟨fun h => absurd h he, fun _ => by omega, fun h => absurd h (by simp [he']),
            fun _ _ => ⟨rfl, fun _ => rfl, fun h => absurd hc h, fun h => absurd hc h⟩⟩
        · have hv : v = { w with calm := if w.calmSample then w.calm + 1 else 0 } := by
            show w.levelled.floored = _
            rw [levelled_runs hw hc he']
            exact floored_low hf
          rw [hv]
          exact ⟨fun h => absurd h he, fun _ => by dsimp only; omega, fun h => absurd h (by simp [he']),
            fun _ _ => ⟨rfl, fun h => absurd h hc, fun _ h => by simp [h], fun _ h => by simp [h]⟩⟩

/-- A warranted level above CALM has one of its enter values reached (R129). -/
theorem warranted_entered {p : Profile} {g m : Nat} (h : p.warranted g m ≠ .calm) :
    (p.thresholds (p.warranted g m)).enterGust ≤ g ∨ (p.thresholds (p.warranted g m)).enterMean ≤ m := by
  unfold Profile.warranted at *
  split
  · next hs => exact of_decide_eq_true hs
  · split
    · next hs => exact of_decide_eq_true hs
    · split
      · next hs => exact of_decide_eq_true hs
      · split
        · next hs => exact of_decide_eq_true hs
        · simp_all

end Level

/-! ### The reports of a sample (R118) -/

/-- A code without an action leaves the hold set as it is. -/
theorem report_hlu_without_action {c : FaultCode} (k : Option Nat) (s : State) (hc : c.action = none) :
    (report c k s).hlu = s.hlu := by
  cases hm : (s.bank c.bank).masks c with
  | true => rw [report_masked k hm]
  | false => exact report_hlu_of_none k hm hc

/-- What every step of a fold keeps, the fold keeps. -/
theorem foldl_keeps {α β : Type} (g : State → β) (f : State → α → State) (h : ∀ s a, g (f s a) = g s) (l : List α) :
    ∀ s, g (l.foldl f s) = g s := by
  induction l with
  | nil => exact fun _ => rfl
  | cons x xs ih => exact fun s => (ih (f s x)).trans (h s x)

theorem windReports_hlu (w : Wmn) (s : State) : (windReports w s).hlu = s.hlu := by
  have step (b : Bool) (c : FaultCode) (k : Option Nat) (hc : c.action = none) (t : State) :
      (if b then report c k t else t).hlu = t.hlu := by
    split
    · exact report_hlu_without_action k t hc
    · rfl
  unfold windReports
  dsimp only
  have range := foldl_keeps State.hlu
    (fun t ch => if (w.channels.get ch).rangeDue then report .channelRange (some (channelNumber ch)) t else t)
    (fun t ch => step _ _ _ rfl t) allChannels s
  have fail := foldl_keeps State.hlu
    (fun t ch => if w.channels.sampled.failing ch then report .channelImplausible (some (channelNumber ch)) t else t)
    (fun t ch => step _ _ _ rfl t) allChannels
  split
  · exact (report_hlu_without_action _ _ rfl).trans ((fail _).trans range)
  · exact (fail _).trans range

end Sys2Proof.Machine

/-! Proofs: the wind statements, from what a sample leaves of channels, level and hold entry. -/

namespace Sys2Proof.Machine

section Sample

variable {s : State}

/-- A channel's record after a sample event. -/
theorem windSample_channel (s : State) (ch : Channel) :
    (windSample s).channel ch = s.wmn.channels.sampled.judge ch := by
  obtain ⟨_, _, _, h⟩ := sampleAfter_eq s.wmn
  rw [State.channel, windSample_wmn, h]
  exact judged_get _ ch

theorem exec_windSample (h : s.time.resetHeld = false) : exec .windSample s = .next (windSample s) :=
  congrArg _ (unlessReset_running h)

/-- A sample event leaves all but the Wind Monitor, the holds, the banks and what follows them (R118). -/
theorem windSample_parts (s : State) :
    (windSample s).ptr = s.ptr ∧ (windSample s).cfs = s.cfs ∧ (windSample s).pim = s.pim ∧ (windSample s).time = s.time := by
  have reports := windReports_event s.wmn { s with wmn := s.wmn.sampleAfter }
  unfold windSample
  dsimp only
  split
  · exact ⟨reports.ptr, reports.cfs, reports.pim, reports.time⟩
  · have ev := reports.trans (windHandOver_event (some s.wmn.level) s.wmn.sampleCause _)
    exact ⟨ev.ptr, ev.cfs, ev.pim, ev.time⟩

end Sample

/-- Settles O24: what the judgement of plausibility leaves of a channel's measures. -/
theorem windSampleFormsGustAndMean : Obligations.WindSampleFormsGustAndMean := by
  intro s hreset
  obtain ⟨hptr, hcfs, hpim, htime⟩ := windSample_parts s
  refine ⟨windSample s, exec_windSample hreset, hptr, hcfs, hpim, htime, fun ch => ?_⟩
  intro c v d newest
  obtain ⟨z, q, r, hjudge⟩ := judge_eq s.wmn.channels.sampled ch
  have hd : d = { c.sampled with zeroRun := z, validity := q, recoveryRun := r } := by
    show (windSample s).channel ch = _
    rw [windSample_channel, hjudge, sampled_get]
    rfl
  obtain ⟨henable, hkc, -, -, -, hpulses⟩ := sampled_kept c
  have hring : d.ring = c.sampled.ring := by rw [hd]
  have hv : ringPush c.ring (min 800 c.rawSample) = ringPush c.ring v := rfl
  simp only [newest, hring]
  rw [hd]
  refine ⟨hpulses, henable, hkc, fun he => ?off, fun he => ⟨fun hl => ?short, fun hl => ?full, ?gust, ?clamped,
    fun hn => ?counted, fun hn => ?meaned⟩⟩
  case off =>
    rw [sampled_disabled he]
    exact ⟨rfl, rfl, rfl⟩
  case short => exact (sampled_ring he).trans (ringPush_short hl)
  case full => exact (sampled_ring he).trans (ringPush_full hl)
  case gust =>
    by_cases hn : c.sampleCount = 3
    · rw [sampled_meaned he hn]
    · rw [sampled_counted he hn]
  case clamped =>
    by_cases hn : c.sampleCount = 3
    · rw [sampled_meaned he hn]
      rfl
    · rw [sampled_counted he hn]
      rfl
  case counted =>
    rw [sampled_counted he hn]
    exact ⟨rfl, rfl, rfl⟩
  case meaned =>
    rw [sampled_meaned he hn]
    refine ⟨rfl, rfl, rfl, fun hi => ?_, fun hi => ?_⟩
    · dsimp only
      rw [hi]
      exact meanUpdate_first ..
    · dsimp only
      rw [hi]
      exact meanUpdate_next ..

/-! ### The level (R125, R129 to R131) -/

/-- The floor level of a sample by its conditions (R125). -/
theorem floorLevel_code (n warmUp : Nat) :
    (floorConditions n warmUp).level.code =
      if n = 0 ∨ warmUp < 240 then 2 else if n = 1 then 1 else 0 := by
  unfold FloorConds.level floorConditions
  by_cases h0 : n = 0 ∨ warmUp < 240
  · rw [if_pos h0, if_pos (by simpa using h0)]
    rfl
  · rw [if_neg h0, if_neg (by simpa using h0)]
    by_cases h1 : n = 1 <;> simp only [h1, beq_self_eq_true, ↓reduceIte, beq_iff_eq] <;> rfl

/-- The hold set after a sample: untouched while the level stays, and with the level's entry alone changed otherwise. -/
theorem windSample_holds (s : State) :
    let t := windSample s
    (t.wmn.level = s.wmn.level → t.hlu = s.hlu) ∧
    (t.wmn.level ≠ s.wmn.level → t.wmn.level = .calm → t.hold .wind = none) ∧
    (t.wmn.level ≠ s.wmn.level → t.wmn.level ≠ .calm →
      t.hold .wind = some { id := .wind, level := t.wmn.level.hold, time := s.cfs.clock }) ∧
    ∀ i, i ≠ .wind → i ≠ .boarding → t.hold i = s.hold i := by
  intro t
  let r := windReports s.wmn { s with wmn := s.wmn.sampleAfter }
  have hlu : r.hlu = s.hlu := windReports_hlu ..
  have ev : Event { s with wmn := s.wmn.sampleAfter } r := windReports_event ..
  have hw : t.wmn = s.wmn.sampleAfter := windSample_wmn s
  have ht : t = if s.wmn.sampleAfter.level = s.wmn.level then r else windHandOver (some s.wmn.level) s.wmn.sampleCause r := rfl
  have hr : r.wmn.level = s.wmn.sampleAfter.level := by rw [ev.wmn]
  rw [hw]
  refine ⟨fun h => ?_, fun h hc => ?_, fun h hc => ?_, fun i h1 h2 => ?_⟩
  · rw [ht, if_pos h]
    exact hlu
  · rw [ht, if_neg h]
    exact windHandOver_hold_calm _ _ (hr.trans hc)
  · rw [ht, if_neg h, windHandOver_hold _ _ (by rwa [hr]), hr, ev.cfs]
  · rw [ht]
    split
    · exact hold_congr hlu i
    · exact ((windHandOver_entryOf ..).hold i h1 h2).trans (hold_congr hlu i)

/-- Settles O25: steps 1 to 4 give the levels of the sample, steps 5 and 6 the next level and the calm timer. -/
theorem windLevelFollowsSample : Obligations.WindLevelFollowsSample := by
  intro s hreset
  refine ⟨windSample s, exec_windSample hreset, ?_⟩
  intro w v warranted floor exits below expires
  let o := w.observed
  obtain ⟨l, c, r, hafter⟩ := sampleAfter_eq w
  have hv : v = w.sampleAfter := windSample_wmn s
  have hobs : v.gust = o.gust ∧ v.mean = o.mean ∧ v.warranted = o.warranted ∧ v.floorLevel = o.floorLevel ∧
      v.channels = o.channels ∧ v.operative = w.operative ∧ v.profile0 = w.profile0 ∧ v.profile1 = w.profile1 ∧
      v.warmUp = min 240 (w.warmUp + 1) := by
    rw [hv, hafter]
    exact ⟨rfl, rfl, rfl, rfl, rfl, rfl, rfl, rfl, rfl⟩
  obtain ⟨hgust, hmean, hwarr, hfloor, hchan, hop, hp0, hp1, hwarm⟩ := hobs
  have hwarranted : o.warranted = warranted := by
    show w.profileInForce.warranted o.gust o.mean = w.profileInForce.warranted v.gust v.mean
    rw [hgust, hmean]
  have hfloorCode : o.floorLevel.code = floor := by
    simp only [floor, hchan]
    exact floorLevel_code ..
  have hbelow : below ↔ o.calmSample = true := by
    simp only [below, hgust, hmean]
    exact decide_eq_true_iff.symm
  have hexpires : expires ↔ o.calmExpires = true := by
    simp only [expires, calmExpires_iff, below, hgust, hmean, ← hwarranted]
    exact Iff.rfl
  have hlevel := level_after_sample o
  dsimp only at hlevel
  rw [show o.levelled.floored.level = v.level from by rw [hv]; rfl, show o.levelled.floored.calm = v.calm from by rw [hv]; rfl,
    show o.levelled.floored.calmRuns = v.calmRuns from by rw [hv]; rfl, hfloorCode, hwarranted] at hlevel
  obtain ⟨hfall, hmax, hrestart, hruns⟩ := hlevel
  obtain ⟨hsame, hgone, hentry, hothers⟩ := windSample_holds s
  have hno {p : Prop} {b : Bool} (h : p ↔ b = true) (hp : ¬p) : b = false := by simpa using mt h.mpr hp
  refine ⟨by rw [hgust, hchan]; rfl, by rw [hmean, hchan]; rfl, hwarr.trans hwarranted, by rw [hfloor]; exact hfloorCode,
    fun he => hfall (hexpires.mp he), fun hn => hmax fun ⟨h1, h2⟩ => hn ⟨hexpires.mpr h1, h2⟩, ?warranted,
    fun h => hrestart (h.imp id hexpires.mp), fun h he => ?runs, hsame, hgone, hentry, hothers, hop, hp0, hp1, hwarm⟩
  case runs =>
    obtain ⟨h1, h2, h3, h4⟩ := hruns h (hno hexpires he)
    exact ⟨h1, h2, fun hc hb => h3 hc (hbelow.mp hb), fun hc hb => h4 hc (hno hbelow hb)⟩
  case warranted =>
    -- at a fall the warranted level cannot be the old one, for its enter values are above the exits
    intro hg hm
    by_cases hx : expires ∧ floor < w.level.code
    · obtain ⟨he, hlt⟩ := hx
      have hone : v.level.code + 1 = w.level.code := hfall (hexpires.mp he) hlt
      obtain ⟨hc, hle, ⟨hbg, hbm⟩, -⟩ : w.level ≠ .calm ∧ warranted.code ≤ w.level.code ∧
        (v.gust < exits.exitGust ∧ v.mean < exits.exitMean) ∧ _ := he
      have hne : warranted.code ≠ w.level.code := by
        intro heq
        have hwl : w.profileInForce.warranted v.gust v.mean = w.level := WindLevel.code_inj heq
        have hent := warranted_entered (hwl.symm ▸ hc)
        rw [hwl] at hent
        have h1 : exits.enterGust ≤ v.gust ∨ exits.enterMean ≤ v.mean := hent
        omega
      omega
    · have hcode : v.level.code = max (max w.level.code warranted.code) floor := hmax fun ⟨h1, h2⟩ => hx ⟨hexpires.mpr h1, h2⟩
      omega

/-! ### The named events of a sample (R122, R123, R125, R130; log 5) -/

section Named

variable {s : State} {ch : Channel}

/-- A named event is the sample at which it happens, and nothing at any other. -/
theorem named_event {b : Bool} (h : s.time.resetHeld = false) (c : State → Bool) (hb : c s = b) :
    (.next (unlessReset (fun s => if c s then windSample s else s) s) : Result) = .next (if b then windSample s else s) := by
  rw [unlessReset_running h, hb]

theorem exec_channelImplausible (h : s.time.resetHeld = false) (ch : Channel) :
    exec (.channelImplausible ch) s = .next (if s.wmn.channels.sampled.failing ch then windSample s else s) :=
  named_event h _ rfl

theorem exec_channelRecovery (h : s.time.resetHeld = false) (ch : Channel) :
    exec (.channelRecovery ch) s = .next (if s.wmn.channels.sampled.recovering ch then windSample s else s) :=
  named_event h _ rfl

theorem exec_calmPeriodExpiry (h : s.time.resetHeld = false) :
    exec .calmPeriodExpiry s = .next (if s.wmn.observed.calmExpires then windSample s else s) := named_event h _ rfl

theorem exec_warmUpEnd (h : s.time.resetHeld = false) :
    exec .warmUpEnd s = .next (if s.wmn.warmUp = 239 then windSample s else s) := congrArg _ (unlessReset_running h)

/-- The calm period's expiry, read off the state before and after the sample (R130). -/
theorem calmExpires_observed_iff :
    s.wmn.observed.calmExpires = true ↔
      s.wmn.level ≠ .calm ∧
      (s.wmn.profileInForce.warranted (windSample s).wmn.gust (windSample s).wmn.mean).code ≤ s.wmn.level.code ∧
      (windSample s).wmn.gust < (s.wmn.profileInForce.thresholds s.wmn.level).exitGust ∧
      (windSample s).wmn.mean < (s.wmn.profileInForce.thresholds s.wmn.level).exitMean ∧
      4 * s.wmn.profileInForce.calmPeriod ≤ s.wmn.calm + 1 := by
  obtain ⟨_, _, _, hafter⟩ := sampleAfter_eq s.wmn
  rw [windSample_wmn, hafter, calmExpires_iff, and_assoc]
  exact Iff.rfl

theorem mem_allChannels (ch : Channel) : ch ∈ allChannels := by cases ch <;> decide

/-- Wind elsewhere, read off the state before and after the sample (R122). -/
theorem windElsewhere_iff :
    s.wmn.channels.sampled.windElsewhere ch = true ↔
      ∃ o, o ≠ ch ∧ (s.channel o).validity = .valid ∧ 80 ≤ ((windSample s).channel o).gust := by
  have hgust (o : Channel) : ((windSample s).channel o).gust = (s.wmn.channels.get o).sampled.gust := by
    rw [windSample_channel, judge_gust, sampled_get]
  have hval (o : Channel) : (s.wmn.channels.get o).sampled.validity = (s.channel o).validity := by
    obtain ⟨-, -, h, -⟩ := sampled_kept (s.wmn.channels.get o)
    exact h
  simp only [ChannelRecs.windElsewhere, List.any_eq_true, mem_allChannels, true_and, Bool.and_eq_true, bne_iff_ne,
    beq_iff_eq, decide_eq_true_eq, hgust, hval, and_assoc, sampled_get]

variable (he : (s.channel ch).enable = true)

include he

theorem sampled_zeroRunAfter :
    s.wmn.channels.sampled.zeroRunAfter ch =
      if (s.channel ch).rawSample = 0 ∧ s.wmn.channels.sampled.windElsewhere ch then min 240 ((s.channel ch).zeroRun + 1)
      else 0 := by
  obtain ⟨-, -, -, hzero, -, -⟩ := sampled_kept (s.channel ch)
  rw [ChannelRecs.zeroRunAfter, sampled_get, show s.wmn.channels.get ch = s.channel ch from rfl, hzero]
  simp only [sampled_latest_eq_zero he]

theorem sampled_recoveryRunAfter :
    (s.wmn.channels.sampled.get ch).recoveryRunAfter =
      if (s.channel ch).rawSample = 0 then 0 else min 240 ((s.channel ch).recoveryRun + 1) := by
  obtain ⟨-, -, -, -, hrec, -⟩ := sampled_kept (s.channel ch)
  rw [ChannelRec.recoveryRunAfter, sampled_get, show s.wmn.channels.get ch = s.channel ch from rfl, hrec]
  simp only [sampled_latest_eq_zero he]

theorem sampled_failing (hv : (s.channel ch).validity = .valid) :
    s.wmn.channels.sampled.failing ch = decide (240 ≤ s.wmn.channels.sampled.zeroRunAfter ch) := by
  obtain ⟨hen, -, hval, -⟩ := sampled_kept (s.channel ch)
  rw [ChannelRecs.failing, sampled_get, show s.wmn.channels.get ch = s.channel ch from rfl, hen, hval, he, hv]
  rfl

theorem sampled_recovering (hv : (s.channel ch).validity = .implausible) :
    s.wmn.channels.sampled.recovering ch = decide (240 ≤ (s.wmn.channels.sampled.get ch).recoveryRunAfter) := by
  obtain ⟨hen, -, hval, -⟩ := sampled_kept (s.channel ch)
  rw [ChannelRecs.recovering, sampled_get, show s.wmn.channels.get ch = s.channel ch from rfl, hen, hval, he, hv]
  rfl

/-- A VALID channel's record after a sample that does not make it IMPLAUSIBLE. -/
theorem windSample_valid (hv : (s.channel ch).validity = .valid) (h : s.wmn.channels.sampled.failing ch = false) :
    ((windSample s).channel ch).zeroRun = s.wmn.channels.sampled.zeroRunAfter ch ∧
      ((windSample s).channel ch).validity = .valid := by
  obtain ⟨hen, -, hval, -⟩ := sampled_kept (s.channel ch)
  have hjudge := judge_valid (c := s.wmn.channels.sampled) (ch := ch) (by rw [sampled_get]; exact hen.trans he)
    (by rw [sampled_get]; exact hval.trans hv) h
  rw [windSample_channel, hjudge, sampled_get]
  exact ⟨rfl, hval.trans hv⟩

/-- An IMPLAUSIBLE channel's record after a sample that does not make it VALID. -/
theorem windSample_implausible (hv : (s.channel ch).validity = .implausible)
    (h : s.wmn.channels.sampled.recovering ch = false) :
    ((windSample s).channel ch).recoveryRun = (s.wmn.channels.sampled.get ch).recoveryRunAfter ∧
      ((windSample s).channel ch).validity = .implausible := by
  obtain ⟨hen, -, hval, -⟩ := sampled_kept (s.channel ch)
  have hjudge := judge_implausible (c := s.wmn.channels.sampled) (ch := ch) (by rw [sampled_get]; exact hen.trans he)
    (by rw [sampled_get]; exact hval.trans hv) h
  rw [windSample_channel, hjudge, sampled_get]
  exact ⟨rfl, hval.trans hv⟩

end Named

section Idle

variable {s : State} {ch : Channel}

theorem failing_idle (h : (s.channel ch).enable = false ∨ (s.channel ch).validity ≠ .valid) :
    s.wmn.channels.sampled.failing ch = false := by
  obtain ⟨hen, -, hval, -⟩ := sampled_kept (s.channel ch)
  rw [ChannelRecs.failing, sampled_get, show s.wmn.channels.get ch = s.channel ch from rfl, hen, hval]
  rcases h with h | h <;> simp [h]

theorem recovering_idle (h : (s.channel ch).enable = false ∨ (s.channel ch).validity ≠ .implausible) :
    s.wmn.channels.sampled.recovering ch = false := by
  obtain ⟨hen, -, hval, -⟩ := sampled_kept (s.channel ch)
  rw [ChannelRecs.recovering, sampled_get, show s.wmn.channels.get ch = s.channel ch from rfl, hen, hval]
  rcases h with h | h <;> simp [h]

end Idle

/-- Settles O26: a named event is a condition of the channels or the level after steps 1 to 4 of the sample. -/
theorem namedWindEventsAreSamples : Obligations.NamedWindEventsAreSamples := by
  intro s hreset
  have happens {b : Bool} {i : Instr} (h : exec i s = .next (if b then windSample s else s)) :
      (b = true → exec i s = .next (windSample s)) ∧ (b = false → exec i s = .next s) :=
    ⟨fun hb => by rw [h, hb]; rfl, fun hb => by rw [h, hb]; rfl⟩
  refine ⟨windSample s, exec_windSample hreset, fun ch => ?channel, fun hw => ?warmUp, fun hw => ?warmedUp, ?calm⟩
  case warmUp =>
    obtain ⟨_, _, _, hafter⟩ := sampleAfter_eq s.wmn
    refine ⟨(exec_warmUpEnd hreset).trans (by rw [if_pos hw]), ?_⟩
    rw [windSample_wmn, hafter, hw]
    rfl
  case warmedUp => exact (exec_warmUpEnd hreset).trans (by rw [if_neg hw])
  case calm =>
    obtain ⟨expires, expiresNot⟩ := happens (exec_calmPeriodExpiry hreset)
    intro p exits due
    have hdue : s.wmn.observed.calmExpires = true ↔ due := calmExpires_observed_iff
    refine ⟨fun h => ⟨expires (hdue.mpr h), ?_⟩, fun h => expiresNot (by simpa using mt hdue.mp h)⟩
    obtain ⟨-, -, hrestart, -⟩ := level_after_sample s.wmn.observed
    rw [windSample_wmn]
    exact (hrestart (.inr (hdue.mpr h))).1
  case channel =>
    intro c d still windy
    obtain ⟨fails, failsNot⟩ := happens (exec_channelImplausible hreset ch)
    obtain ⟨recovers, recoversNot⟩ := happens (exec_channelRecovery hreset ch)
    refine ⟨fun he hv => ⟨fun hs hw => ?run, fun hno => ?noRun⟩, fun he hv => ⟨fun hs => ?recovery, fun hs => ?noRecovery⟩,
      fun h => failsNot (failing_idle h), fun h => recoversNot (recovering_idle h)⟩
    case run =>
      have hrun := sampled_zeroRunAfter he
      rw [if_pos ⟨hs, windElsewhere_iff.mpr hw⟩] at hrun
      have hfail := sampled_failing he hv
      rw [hrun] at hfail
      by_cases hn : 239 ≤ (s.channel ch).zeroRun
      · have hf : s.wmn.channels.sampled.failing ch = true := hfail.trans (decide_eq_true (by omega))
        have hd : d = { s.wmn.channels.sampled.get ch with
            zeroRun := s.wmn.channels.sampled.zeroRunAfter ch, validity := .implausible, recoveryRun := 0 } :=
          (windSample_channel s ch).trans (judge_failing hf)
        rw [hd]
        exact ⟨hrun, fun _ => ⟨rfl, rfl, fails hf⟩, fun h => absurd hn (Nat.not_le.mpr h)⟩
      · have hf : s.wmn.channels.sampled.failing ch = false := hfail.trans (decide_eq_false (by omega))
        obtain ⟨hzero, hvalid⟩ := windSample_valid he hv hf
        exact ⟨hzero.trans hrun, fun h => absurd h hn, fun _ => ⟨hvalid, failsNot hf⟩⟩
    case noRun =>
      have hrun := sampled_zeroRunAfter he
      rw [if_neg fun ⟨h1, h2⟩ => hno ⟨h1, windElsewhere_iff.mp h2⟩] at hrun
      have hf := sampled_failing he hv
      rw [hrun] at hf
      obtain ⟨hzero, hvalid⟩ := windSample_valid he hv hf
      exact ⟨hzero.trans hrun, hvalid, failsNot hf⟩
    case recovery =>
      have hrun := sampled_recoveryRunAfter he
      rw [if_neg (show ¬(s.channel ch).rawSample = 0 from hs)] at hrun
      have hrec := sampled_recovering he hv
      rw [hrun] at hrec
      by_cases hn : 239 ≤ (s.channel ch).recoveryRun
      · have hr : s.wmn.channels.sampled.recovering ch = true := hrec.trans (decide_eq_true (by omega))
        have hd : d = { s.wmn.channels.sampled.get ch with
            recoveryRun := (s.wmn.channels.sampled.get ch).recoveryRunAfter, validity := .valid, zeroRun := 0 } :=
          (windSample_channel s ch).trans (judge_recovering hr)
        rw [hd]
        exact ⟨hrun, fun _ => ⟨rfl, rfl, recovers hr⟩, fun h => absurd hn (Nat.not_le.mpr h)⟩
      · have hr : s.wmn.channels.sampled.recovering ch = false := hrec.trans (decide_eq_false (by omega))
        obtain ⟨hn', himpl⟩ := windSample_implausible he hv hr
        exact ⟨hn'.trans hrun, fun h => absurd h hn, fun _ => ⟨himpl, recoversNot hr⟩⟩
    case noRecovery =>
      have hrun := sampled_recoveryRunAfter he
      rw [if_pos (show (s.channel ch).rawSample = 0 from hs)] at hrun
      have hr := sampled_recovering he hv
      rw [hrun] at hr
      obtain ⟨hn, himpl⟩ := windSample_implausible he hv hr
      exact ⟨hn.trans hrun, himpl, recoversNot hr⟩

end Sys2Proof.Machine

/-! Proofs: the platform inputs (R144 to R148). -/

namespace Sys2Proof.Machine

/-! ### A formed group (R146) -/

section Form

variable (g : GroupId) (cause : InputCause) (s : State)

/-- A group whose match state has been formed on a mask of filtered values. -/
def InputGroup.formed (v : InputGroup) (m : Bool) : InputGroup :=
  { v with isMatch := m, factor := v.factor || (v.isMatch && !m) }

theorem groupDeparts_pim : (groupDeparts g cause s).pim = (setGroup g { s.group g with isMatch := false, factor := true } s).pim := by
  unfold groupDeparts
  dsimp only
  rw [(report_event ..).pim]
  split <;> rfl

/-- The Platform Input Monitor after a group's match state has been formed afresh: that group alone has changed. -/
theorem formMatch_pim :
    (formMatch g cause s).pim =
      (setGroup g ((s.group g).formed ((s.group g).matchOf (s.filteredMask g))) s).pim := by
  unfold formMatch
  dsimp only
  cases hm : (s.group g).matchOf (s.filteredMask g) with
  | true => simp only [↓reduceIte, InputGroup.formed, Bool.not_true, Bool.and_false, Bool.or_false]
  | false =>
    cases hi : (s.group g).isMatch with
    | true => simp only [Bool.false_eq_true, ↓reduceIte, groupDeparts_pim, InputGroup.formed, hi, Bool.not_false,
        Bool.and_self, Bool.or_true]
    | false =>
      have hsame : (s.group g).formed false = s.group g := by
        rw [InputGroup.formed, hi, Bool.false_and, Bool.or_false, ← hi]
      simp only [Bool.false_eq_true, ↓reduceIte, hsame, setGroup_same]

theorem groupDeparts_parts :
    (groupDeparts g cause s).ptr = s.ptr ∧ (groupDeparts g cause s).wmn = s.wmn ∧ (groupDeparts g cause s).cfs = s.cfs := by
  unfold groupDeparts
  dsimp only
  refine ⟨(report_event ..).ptr.trans ?_, (report_event ..).wmn.trans ?_, (report_event ..).cfs.trans ?_⟩ <;> split <;> rfl

/-- Forming a match state leaves the wheel, the wind and the configuration as they were. -/
theorem formMatch_parts :
    (formMatch g cause s).ptr = s.ptr ∧ (formMatch g cause s).wmn = s.wmn ∧ (formMatch g cause s).cfs = s.cfs := by
  unfold formMatch
  dsimp only
  split
  · exact ⟨rfl, rfl, rfl⟩
  · split
    · exact groupDeparts_parts g cause s
    · exact ⟨rfl, rfl, rfl⟩

theorem judgeInputs_parts :
    (judgeInputs g s).ptr = s.ptr ∧ (judgeInputs g s).wmn = s.wmn ∧ (judgeInputs g s).cfs = s.cfs :=
  have ev := judgeInputs_event g s
  ⟨ev.ptr, ev.wmn, ev.cfs⟩

theorem reformGroup_parts :
    (reformGroup g cause s).ptr = s.ptr ∧ (reformGroup g cause s).wmn = s.wmn ∧ (reformGroup g cause s).cfs = s.cfs := by
  obtain ⟨hptr, hwmn, hcfs⟩ := judgeInputs_parts g (formMatch g cause s)
  obtain ⟨hptr', hwmn', hcfs'⟩ := formMatch_parts g cause s
  exact ⟨hptr.trans hptr', hwmn.trans hwmn', hcfs.trans hcfs'⟩

/-- A reformed group is formed on its filtered values, and no other group or input has changed (R146, R147). -/
theorem reformGroup_pim :
    (reformGroup g cause s).pim =
      (setGroup g ((s.group g).formed ((s.group g).matchOf (s.filteredMask g))) s).pim :=
  (judgeInputs_entryOf g (formMatch g cause s)).pim.trans (formMatch_pim g cause s)

end Form

/-! ### The filters (R144) -/

section Inputs

variable {i : Nat} {s t : State}

theorem setInput_same (i : Nat) (s : State) : setInput i (s.input i) s = s := by
  have hset : s.pim.inputs.set i (s.pim.inputs.getD i .cold) = s.pim.inputs := by
    by_cases h : i < s.pim.inputs.length
    · rw [List.getD_eq_getElem?_getD, List.getElem?_eq_getElem h, Option.getD_some, List.set_getElem_self]
    · exact List.set_eq_of_length_le (Nat.not_lt.mp h)
  unfold setInput State.input
  rw [hset]

theorem setInput_input_self (v : Input) (h : i < s.pim.inputs.length) : (setInput i v s).input i = v := by
  simp [State.input, setInput, List.getD_eq_getElem?_getD, h]

theorem setInput_input_other (v : Input) {j : Nat} (h : j ≠ i) : (setInput i v s).input j = s.input j := by
  simp [State.input, setInput, List.getD_eq_getElem?_getD, List.getElem?_set_ne (Ne.symm h)]

theorem rawChanged_same (x : Input) : x.rawChanged x.raw = x := if_pos rfl

theorem rawChanged_other {x : Input} {value : Bool} (h : x.raw ≠ value) :
    x.rawChanged value = { x with raw := value, timer := if value = x.filtered then none else some 0 } := if_neg h

theorem inputChange_stopped (h : (s.input i).timer = none) : inputChange i s = s := if_neg (by simp [h])

theorem inputChange_running (h : (s.input i).timer.isSome = true) :
    inputChange i s = reformGroup (groupOfInput i) (.input i) (setInput i (s.input i).taken s) := if_pos h

/-- The inputs and the filtered masks are the Platform Input Monitor's alone. -/
theorem input_congr (h : t.pim.inputs = s.pim.inputs) (j : Nat) : t.input j = s.input j := by
  simp only [State.input, h]

theorem filteredMask_congr (h : t.pim.inputs = s.pim.inputs) (g : GroupId) : t.filteredMask g = s.filteredMask g := by
  simp only [State.filteredMask, input_congr h]

theorem setGroup_inputs (g : GroupId) (v : InputGroup) (s : State) : (setGroup g v s).pim.inputs = s.pim.inputs := by
  cases g <;> rfl

end Inputs

theorem matchOf_eq (v : InputGroup) (m : BitVec 8) : v.matchOf m = decide ((m ^^^ v.expected) &&& v.select = 0) :=
  Bool.beq_eq_decide_eq ..

/-- Settles O27: an expiry is the reforming of the input's group with the input taken. -/
theorem inputFiltersFormGroup : Obligations.InputFiltersFormGroup := by
  intro i s hreset hlen x g
  have raw (value : Bool) : exec (.inputRawChange i value) s = .next (inputRaw i.val value s) := by
    refine congrArg Host.Outcome.next ?_
    rw [hreset]
    rfl
  have change : exec (.inputChange i) s = .next (inputChange i.val s) := congrArg _ (unlessReset_running hreset)
  refine ⟨?same, fun value hne => ?other, fun ht => ?stopped, fun ht => ?expires⟩
  case same => rw [raw, inputRaw, rawChanged_same, setInput_same]
  case other => rw [raw, inputRaw, rawChanged_other hne]
  case stopped => rw [change, inputChange_stopped ht]
  case expires =>
    let u := setInput i.val x.taken s
    let t := reformGroup g (.input i.val) u
    have hpim : t.pim = (setGroup g ((u.group g).formed ((u.group g).matchOf (u.filteredMask g))) u).pim :=
      reformGroup_pim ..
    have hinputs : t.pim.inputs = u.pim.inputs := by rw [hpim, setGroup_inputs]
    have hu : u.group g = s.group g := setInput_group ..
    have hown : t.group g = (s.group g).formed ((s.group g).matchOf (t.filteredMask g)) := by
      rw [group_congr hpim, setGroup_group_self, hu, filteredMask_congr hinputs]
    have hmatch : (t.group g).isMatch =
        decide ((t.filteredMask g ^^^ (s.group g).expected) &&& (s.group g).select = 0) := by
      rw [hown, ← matchOf_eq]
      rfl
    obtain ⟨hptr, hwmn, hcfs⟩ := reformGroup_parts g (.input i.val) u
    refine ⟨t, by rw [change, inputChange_running ht], ?_, fun j hj => ?_, hmatch, by rw [hown]; rfl, by rw [hown]; rfl,
      fun y hy => ?_, (reformGroup_agrees g _ u).isSome_iff, hptr, hwmn, hcfs⟩
    · rw [input_congr hinputs, setInput_input_self _ (by omega)]
      rfl
    · rw [input_congr hinputs, setInput_input_other _ hj]
    · rw [group_congr hpim, setGroup_group_other _ hy, setInput_group]

end Sys2Proof.Machine

/-! Proofs: the receiver and the transmitter of a link port (R173 to R177). -/

namespace Sys2Proof.Machine

/-! ### The receiver (R173) -/

section Receiver

variable {p : Port} {e : Nat} {s : State}

/-- Once all bytes of a frame are there, its CRC alone is judged (R172). -/
theorem gather_whole {f : Frame} (hf : f.payload.length ≤ 200) (a b : Byte) :
    gather (f.body ++ [a, b]) = .done f ([a, b] == halfBytes (crc16 f.body)) := by
  have hlen : (BitVec.ofNat 8 (f.payload.length + 2)).toNat = f.payload.length + 2 := by
    rw [BitVec.toNat_ofNat]; omega
  generalize hc : crc16 f.body = c
  rw [body_eq] at hc ⊢
  rw [List.cons_append, gather, hlen, if_neg (by omega), if_neg (by simp)]
  simp only [List.cons_append, gatheredFrame, hlen, Nat.add_sub_cancel, List.take_left', List.drop_left', hc]

theorem byteArrives_hunting {b : Byte} {stop : Bool} (h : (s.port p).receiver = .hunting) :
    byteArrives p b stop s = if stop && b == 0xC3 then setReceiver p (.inFrame [] 0) s else s := by
  simp only [byteArrives, h]

theorem byteArrives_inFrame {bytes : List Byte} {b : Byte} {stop : Bool} (h : (s.port p).receiver = .inFrame bytes e) :
    byteArrives p b stop s = frameByte p bytes e b stop s := by
  simp only [byteArrives, h]

theorem frameByte_unframed {bytes : List Byte} {b : Byte} : frameByte p bytes e b false s = discardFrame p .crcError s := rfl

theorem frameByte_more {bytes : List Byte} {b : Byte} (h : gather (bytes ++ [b]) = .more) :
    frameByte p bytes e b true s = setReceiver p (.inFrame (bytes ++ [b]) e) s := by
  simp only [frameByte, h, ↓reduceIte]

theorem frameByte_badLength {bytes : List Byte} {b : Byte} (h : gather (bytes ++ [b]) = .badLength) :
    frameByte p bytes e b true s = discardFrame p .crcError s := by
  simp only [frameByte, h, ↓reduceIte]

theorem frameByte_done {bytes : List Byte} {b : Byte} {f : Frame} (h : gather (bytes ++ [b]) = .done f true) :
    frameByte p bytes e b true s = frameArrives p f (setReceiver p .hunting s) := by
  simp only [frameByte, h, ↓reduceIte]

theorem frameByte_wrongCrc {bytes : List Byte} {b : Byte} {f : Frame} (h : gather (bytes ++ [b]) = .done f false) :
    frameByte p bytes e b true s = discardFrame p .crcError s := by
  simp only [frameByte, h, ↓reduceIte]

theorem frameTimeout_hunting (h : (s.port p).receiver = .hunting) : frameTimeout p s = s := by
  simp only [frameTimeout, h]

theorem frameTimeout_inFrame {bytes : List Byte} (h : (s.port p).receiver = .inFrame bytes e) :
    frameTimeout p s = discardFrame p .frameTimeout s := by
  simp only [frameTimeout, h]

theorem gather_len_bad {len : Byte} (h : len.toNat < 2 ∨ 202 < len.toNat) : gather [len] = .badLength := if_pos h

theorem gather_len {len : Byte} (h1 : 2 ≤ len.toNat) (h2 : len.toNat ≤ 202) : gather [len] = .more := by
  rw [gather, if_neg (by omega), if_pos (by simp)]

end Receiver

/-- Settles O29, from what the bytes gathered come to at each byte. -/
theorem receiverDiscardsBadFrames : Obligations.ReceiverDiscardsBadFrames := by
  intro p s hreset dropped
  have byte {b : Byte} {stop : Bool} {t : State} (h : byteArrives p b stop s = t) :
      exec (.linkByteReceived p b stop) s = .next t := by rw [exec_byte hreset, h]
  have timeout {t : State} (h : frameTimeout p s = t) : exec (.frameTimeout p) s = .next t :=
    congrArg _ ((unlessReset_running hreset).trans h)
  refine ⟨fun hh => ⟨byte ?start, timeout (frameTimeout_hunting hh), fun b ok hno => byte ?wait⟩, fun bytes e hin =>
    ⟨fun b => byte ?framing, fun h0 len hlen => byte ?badLength, fun h0 len h1 h2 => byte ?length,
      fun kind tag high low payload hp => ?frame, timeout (frameTimeout_inFrame hin)⟩⟩
  case start => exact (byteArrives_hunting hh).trans (if_pos rfl)
  case wait =>
    refine (byteArrives_hunting hh).trans (if_neg ?_)
    rcases hno with h | h
    · rw [beq_eq_false_iff_ne.mpr h, Bool.and_false]
      exact Bool.false_ne_true
    · rw [h]
      exact Bool.false_ne_true
  case framing => exact byteArrives_inFrame hin
  case badLength =>
    subst h0
    exact (byteArrives_inFrame hin).trans (frameByte_badLength (gather_len_bad hlen))
  case length =>
    subst h0
    exact (byteArrives_inFrame hin).trans (frameByte_more (gather_len h1 h2))
  case frame =>
    intro covered hb
    let f : Frame := { kind := kind, tag := tag, payload := payload }
    have hg := gather_whole (f := f) hp high low
    rw [body_eq] at hg
    have hbytes : bytes ++ [low] = covered ++ [high, low] := by rw [hb, List.append_assoc]; rfl
    refine ⟨fun hc => byte ((byteArrives_inFrame hin).trans (frameByte_wrongCrc (f := f) ?_)),
      fun hc => byte ((byteArrives_inFrame hin).trans (frameByte_done ?_))⟩
    · rw [hbytes]
      exact hg.trans (congrArg _ (beq_eq_false_iff_ne.mpr hc))
    · rw [hbytes]
      exact hg.trans (congrArg _ (beq_iff_eq.mpr hc))

/-! ### A port over the notices of an event -/

/-- What a notice leaves of a port: all but its transmitter, outbox and notice-lost flag (R177). -/
theorem portNotice_eq (n : Notice) (q : PortState) :
    ∃ x o l, portNotice n q = { q with transmitter := x, outbox := o, noticeLost := l } := by
  unfold portNotice
  split
  · exact ⟨_, _, _, rfl⟩
  · split <;> exact ⟨_, _, _, rfl⟩

theorem noticed_port_eq (ns : List Notice) (q : PortState) :
    ∃ x o l, ns.foldl (fun q n => portNotice n q) q = { q with transmitter := x, outbox := o, noticeLost := l } := by
  induction ns generalizing q with
  | nil => exact ⟨_, _, _, rfl⟩
  | cons n ns ih =>
    obtain ⟨x, o, l, h⟩ := ih (portNotice n q)
    obtain ⟨_, _, _, hn⟩ := portNotice_eq n q
    exact ⟨x, o, l, by rw [List.foldl_cons, h, hn]⟩

/-- What an event leaves of a port: all but what its notices change. -/
theorem Effect.port_eq {s t : State} (h : Effect s t) (p : Port) :
    ∃ x o l, t.port p = { s.port p with transmitter := x, outbox := o, noticeLost := l } := by
  obtain ⟨ns, hns⟩ := h.ports
  cases p
  · exact (noticed_port_eq ns s.lkp.p1).imp fun _ => Exists.imp fun _ => Exists.imp fun _ hq => (congrArg Lkp.p1 hns).trans hq
  · exact (noticed_port_eq ns s.lkp.p2).imp fun _ => Exists.imp fun _ => Exists.imp fun _ hq => (congrArg Lkp.p2 hns).trans hq

/-- A transmitter that sends goes on with what it sends (R177). -/
theorem sending_property (x : Outgoing) : FrameProperty fun q => q.transmitter = some x where
  notice n q h := by
    rcases portNotice_cases n q with ⟨hn, -⟩ | ⟨-, ⟨-, e⟩ | ⟨-, e⟩⟩
    · exact absurd (h.symm.trans hn) nofun
    · rw [e]; exact h
    · rw [e]; exact h
  frames _ _ _ _ ht _ h := ht.trans h

theorem fifo_property (l : List Frame) : FrameProperty fun q => q.fifo = l where
  notice n q h := by
    obtain ⟨_, _, _, e⟩ := portNotice_eq n q
    rw [e]
    exact h
  frames _ _ hf _ _ _ h := hf.trans h

/-! ### The transmitter (R177) -/

section Transmitter

variable {p : Port} {s : State}

theorem pump_busy (h : (s.port p).transmitter.isSome = true) : pump p s = s := by
  rw [pump, PortState.pumped, if_pos h, setPort_same]

theorem pumped_empty {q : PortState} (ht : q.transmitter = none) (hr : q.reply = none) (ho : q.outbox = []) :
    q.pumped = q := by
  simp only [PortState.pumped, ht, hr, ho, Option.isSome_none, Bool.false_eq_true, ↓reduceIte]

theorem pumped_pumped (q : PortState) : q.pumped.pumped = q.pumped := by
  by_cases ht : q.pumped.transmitter.isSome = true
  · rw [PortState.pumped, if_pos ht]
  · have hidle : q.pumped.transmitter = none := by simpa using ht
    obtain ⟨hr, ho⟩ := pumped_idle q hidle
    exact pumped_empty hidle hr ho

/-- What a transmitter that has finished leaves of its port (R177). -/
def PortState.finished (q : PortState) : PortState := PortState.pumped { q with transmitter := none }

theorem finished_reply {q : PortState} {f : Frame} (hr : q.reply = some f) :
    q.finished = { q with transmitter := some (.reply f), reply := none } := by
  simp only [PortState.finished, PortState.pumped, hr, Option.isSome_none, Bool.false_eq_true, ↓reduceIte]

theorem finished_notice {q : PortState} {n : Notice} {rest : List Notice} (hr : q.reply = none)
    (ho : q.outbox = n :: rest) : q.finished = { q with transmitter := some (.notice n), outbox := rest } := by
  simp only [PortState.finished, PortState.pumped, hr, ho, Option.isSome_none, Bool.false_eq_true, ↓reduceIte]

theorem finished_empty {q : PortState} (hr : q.reply = none) (ho : q.outbox = []) :
    q.finished = { q with transmitter := none } := pumped_empty rfl hr ho

theorem transmitDone_eq (h : (s.port p).transmitter.isSome = true) :
    transmitDone p s = settlePort p (setPort p (s.port p).finished s) := by
  rw [transmitDone, if_pos h, pump, setPort_port_self, setPort_setPort, PortState.finished]

/-- With no frame waiting, a finished transmitter begins what it can, and the port has nothing to take. -/
theorem transmitDone_quiet (h : (s.port p).transmitter.isSome = true) (hf : (s.port p).fifo = []) :
    transmitDone p s = setPort p (s.port p).finished s := by
  have hfifo : ((setPort p (s.port p).finished s).port p).fifo = [] := by
    rw [setPort_port_self, PortState.finished, pumped_fifo]
    exact hf
  rw [transmitDone_eq h, settlePort, takeFrame_nil hfifo]
  have hpump : pump p (setPort p (s.port p).finished s) = setPort p (s.port p).finished s := by
    rw [pump, setPort_port_self, setPort_setPort, PortState.finished, pumped_pumped]
  rw [hpump, takeFrame_nil hfifo]

/-- A port that takes a frame while its transmitter sends keeps the reply in its slot (R175). -/
theorem settlePort_sending {f : Frame} {rest : List Frame} (hf : (s.port p).fifo = f :: rest)
    (hr : (s.port p).reply = none) (ht : ((handleFrame p f (setPort p { s.port p with fifo := rest } s)).port p).transmitter.isSome) :
    settlePort p s = handleFrame p f (setPort p { s.port p with fifo := rest } s) := by
  rw [settlePort, takeFrame_cons hf hr, pump_busy ht]
  exact takeFrame_busy (by rw [handleFrame, setPort_port_self]; rfl)

/-- An accepted frame is that of a request of the catalogue (R175). -/
theorem judgeFrame_read {f : Frame} {pl : List Byte} {t : State} (h : judgeFrame p f s = .accepted pl t) :
    ∃ r, readRequest f.kind.toNat f.payload = some r ∧ answer p r s = .accepted pl t := by
  unfold judgeFrame at h
  split at h
  · exact (Answer.not_refused h).elim
  split at h
  · exact (Answer.not_refused h).elim
  split at h
  · exact (Answer.not_refused h).elim
  next r hr => exact ⟨r, hr, h⟩

/-- A handled frame other than RESTART leaves the transmission, the waiting frames, and its reply in the slot (R175, R176). -/
theorem handleFrame_reply {f : Frame} {x : Outgoing} (hk : f.kind ≠ 0x0E) (ht : (s.port p).transmitter = some x) :
    let t := handleFrame p f s
    (t.port p).transmitter = some x ∧ (t.port p).fifo = (s.port p).fifo ∧
      ∃ a, (t.port p).reply = some a ∧ a.tag = f.tag ∧
        (a.kind = f.kind + 0x40 ∨ (a.kind = 0x7F ∧ a.payload.head? = some f.kind)) := by
  intro t
  let claimed := setPort p { s.port p with reply := some (refusalFrame f .unknownKind 0) } s
  have hclaimed : (claimed.port p).transmitter = some x ∧ (claimed.port p).fifo = (s.port p).fifo := by
    simp only [claimed, setPort_port_self]
    exact ⟨ht, trivial⟩
  have hport : t.port p = { (answerState claimed (judgeFrame p f claimed)).port p with
      reply := some (replyFrame f (judgeFrame p f claimed)) } := setPort_port_self ..
  rw [hport]
  cases ha : judgeFrame p f claimed with
  | refused reason n => exact ⟨hclaimed.1, hclaimed.2, _, rfl, rfl, .inr ⟨rfl, rfl⟩⟩
  | accepted payload u =>
    have taken : Taken claimed u := by
      obtain ⟨r, hread, ha⟩ := judgeFrame_read ha
      refine answer_taken ha fun h => hk ?_
      have := readRequest_restart (h ▸ hread)
      exact BitVec.eq_of_toNat_eq this
    exact ⟨taken.port (sending_property x) p hclaimed.1, taken.port (fifo_property _) p hclaimed.2, _, rfl, rfl, .inl rfl⟩

end Transmitter

/-- Settles O30: what a port's notice, its transmitter's end and its taking of a frame come to. -/
theorem transmitterBeginsReplyFirst : Obligations.TransmitterBeginsReplyFirst := by
  refine ⟨fun n q => ?notice, fun p s hreset => ?_⟩
  case notice =>
    intro idle
    refine ⟨fun h => if_pos h, fun h hl => (if_neg h).trans (if_pos hl), fun hl =>
      (if_neg ?_).trans (if_neg (Nat.not_lt.mpr hl))⟩
    rintro ⟨-, -, ho⟩
    simp [ho] at hl
  have done {t : State} (h : transmitDone p s = t) : exec (.transmitDone p) s = .next t :=
    congrArg _ ((unlessReset_running hreset).trans h)
  refine ⟨fun hn => done (if_neg (by simp [hn])), fun ht hf => ⟨fun f hr => done ?reply, fun n rest hr ho => done ?notice,
    fun hr ho => done ?idle⟩, fun ht f r rest hf hr hk => ?take⟩
  case reply => rw [transmitDone_quiet ht hf, finished_reply hr]
  case notice => rw [transmitDone_quiet ht hf, finished_notice hr ho]
  case idle => rw [transmitDone_quiet ht hf, finished_empty hr ho]
  case take =>
    let u := setPort p { s.port p with transmitter := some (.reply r), reply := none, fifo := rest } s
    have hfin : (s.port p).finished = { s.port p with transmitter := some (.reply r), reply := none } :=
      finished_reply hr
    obtain ⟨hx, hfifo, hreply⟩ := handleFrame_reply (p := p) (s := u) hk (congrArg _ (setPort_port_self ..))
    have hv : setPort p { (setPort p (s.port p).finished s).port p with fifo := rest } (setPort p (s.port p).finished s) = u := by
      rw [setPort_port_self, setPort_setPort, hfin]
    have hsettle : settlePort p (setPort p (s.port p).finished s) = handleFrame p f u := by
      rw [← hv]
      refine settlePort_sending ?_ ?_ ?_
      · rw [setPort_port_self, hfin]
        exact hf
      · rw [setPort_port_self, hfin]
      · rw [hv, hx]
        rfl
    refine ⟨handleFrame p f u, done ((transmitDone_eq ht).trans hsettle), rfl, hx, ?_, hreply⟩
    rw [hfifo]
    exact congrArg PortState.fifo (setPort_port_self ..)

end Sys2Proof.Machine

/-! Proofs: frames at a busy port, and the presence timer's expiry (R152, R153, R174, R175). -/

namespace Sys2Proof.Machine

/-! ### A frame heard, and a busy port -/

section BusyPort

variable {p : Port} {s : State}

/-- The presence handling of a frame is the removal of the LINK entry and then the timer's (R152). -/
theorem presenceHeard_eq (p : Port) (s : State) : presenceHeard p s = heard p (holdRemove (.link p) s) := rfl

theorem heard_service (hd : s.cfs.device = .service) (ht : (s.port p).presenceTime ≠ 0) :
    heard p s = setPort p (s.port p).presenceStarted s := if_pos ⟨hd, ht⟩

/-- Hearing a frame touches the presence timer of its port alone. -/
theorem heard_port (p : Port) (s : State) : ∃ x l, (heard p s).port p = { s.port p with presence := x, lateExpiry := l } := by
  unfold heard
  split
  · exact ⟨_, _, setPort_port_self ..⟩
  · exact ⟨_, _, rfl⟩

theorem heard_hlu (p : Port) (s : State) : (heard p s).hlu = s.hlu := by
  unfold heard
  split <;> rfl

theorem holdRemove_port (id : HoldId) (s : State) (p : Port) :
    ∃ x o l, (holdRemove id s).port p = { s.port p with transmitter := x, outbox := o, noticeLost := l } :=
  (holdRemove_event id s).effect.port_eq p

theorem holdRemove_transmitter {id : HoldId} {x : Outgoing} (h : (s.port p).transmitter = some x) :
    ((holdRemove id s).port p).transmitter = some x :=
  (holdRemove_event id s).taken.port (sending_property x) p h

theorem heard_joinFifo (p : Port) (f : Frame) (s : State) : joinFifo p f (heard p s) = heard p (joinFifo p f s) := by
  have hcond : ((joinFifo p f s).port p).presenceTime = (s.port p).presenceTime := by
    rw [joinFifo, setPort_port_self]
  by_cases h : s.cfs.device = .service ∧ (s.port p).presenceTime ≠ 0
  · rw [heard_service h.1 h.2, heard_service (s := joinFifo p f s) h.1 (hcond ▸ h.2)]
    simp only [joinFifo, setPort_port_self, setPort_setPort]
    rfl
  · rw [heard, if_neg h, heard, if_neg (hcond.symm ▸ h)]

/-- With the reply slot taken and the transmitter sending, a frame in the FIFO waits (R175). -/
theorem settlePort_busy (hr : (s.port p).reply.isSome = true) (ht : (s.port p).transmitter.isSome = true) :
    settlePort p s = s := by
  rw [settlePort, takeFrame_busy hr, pump_busy ht, takeFrame_busy hr]

theorem frameArrives_room (f : Frame) (h : (s.port p).fifo.length < 2) :
    frameArrives p f s = settlePort p (heard p (joinFifo p f (holdRemove (.link p) s))) := by
  rw [frameArrives, if_pos h, presenceHeard_eq, heard_joinFifo]

/-- A frame that reaches a busy port is heard and waits (R152, R175). -/
theorem frameArrives_busy (f : Frame) (h : (s.port p).fifo.length < 2) (hr : (s.port p).reply.isSome = true)
    (ht : (s.port p).transmitter.isSome = true) :
    frameArrives p f s = heard p (joinFifo p f (holdRemove (.link p) s)) := by
  obtain ⟨x, hx⟩ := Option.isSome_iff_exists.mp ht
  have hsend := holdRemove_transmitter (id := .link p) hx
  obtain ⟨_, _, _, hport⟩ := holdRemove_port (.link p) s p
  obtain ⟨_, _, hheard⟩ := heard_port p (joinFifo p f (holdRemove (.link p) s))
  rw [joinFifo, setPort_port_self] at hheard
  rw [frameArrives_room f h]
  refine settlePort_busy ?_ ?_
  · rw [joinFifo, hheard]
    rw [hport]
    exact hr
  · rw [joinFifo, hheard]
    exact (congrArg Option.isSome hsend).trans rfl

end BusyPort

/-- Settles O31, by the state of the port that the frame meets. -/
theorem busyPortKeepsFrameWaiting : Obligations.BusyPortKeepsFrameWaiting := by
  intro p tag r s hreset f waiting
  have arrives {u : State} (hu : u.time.resetHeld = false) {t : State} (h : frameArrives p f u = t) :
      requestArrives p tag r u = .next t := congrArg _ ((unlessReset_running hu).trans h)
  refine ⟨fun hfull => arrives hreset (if_neg (Nat.not_lt.mpr hfull)), fun hroom hr ht => ⟨fun hlink => arrives hreset ?absent, ?busy⟩,
    fun hf hr hlink => ?link⟩
  case absent =>
    rw [frameArrives_busy f hroom hr ht, holdRemove_absent hlink]
    rfl
  case busy =>
    let u := joinFifo p f (holdRemove (.link p) s)
    obtain ⟨_, _, _, hport⟩ := holdRemove_port (.link p) s p
    have hu : u.port p = { (holdRemove (.link p) s).port p with fifo := (s.port p).fifo ++ [f] } := by
      rw [show u.port p = _ from setPort_port_self ..]
      rw [hport]
    refine ⟨heard p u, arrives hreset (frameArrives_busy f hroom hr ht), ?_, ?_, fun hd hp => ?_⟩
    · rw [hold_congr (heard_hlu p u)]
      exact (holdRemove_content HoldId.noConfusion s).2.2.1
    · obtain ⟨_, _, hheard⟩ := heard_port p u
      rw [hheard, hu]
    · have htime : (u.port p).presenceTime = (s.port p).presenceTime := by rw [hu, hport]
      have hdev : u.cfs.device = .service := (congrArg Cfs.device (holdRemove_event (.link p) s).cfs).trans hd
      rw [heard_service hdev (htime ▸ hp), setPort_port_self, PortState.presenceStarted, htime]
  case link =>
    intro u
    obtain ⟨-, hothers, hgone, hformed⟩ := holdRemove_content (id := .link p) HoldId.noConfusion s
    obtain ⟨_, _, _, hport⟩ := holdRemove_port (.link p) s p
    have hfree : PortFree p u :=
      { running := (congrArg _ (holdRemove_event (.link p) s).time).trans hreset
        fifo := (congrArg PortState.fifo hport).trans hf
        reply := (congrArg PortState.reply hport).trans hr
        link := hgone }
    refine ⟨hfree, ?_, hformed hlink, hothers⟩
    refine (arrives hreset (frameArrives_room f (by rw [hf]; decide))).trans (arrives hfree.running ?_).symm
    rw [frameArrives_room f (by rw [hfree.fifo]; decide), holdRemove_absent hgone]

/-! ### An expiry that a frame came before (R152, log 49) -/

/-- A late expiry in s is one in t: no later operation of the event takes the flag back. -/
def Late (s t : State) : Prop := ∀ p, (s.port p).lateExpiry = true → (t.port p).lateExpiry = true

section Late

variable {s t u : State}

theorem Late.refl (s : State) : Late s s := fun _ h => h

theorem Late.trans (h : Late s t) (k : Late t u) : Late s u := fun p hp => k p (h p hp)

theorem Late.of_lkp (h : t.lkp = s.lkp) : Late s t := fun p hp => by
  cases p
  · exact (congrArg (fun v => v.p1.lateExpiry) h).trans hp
  · exact (congrArg (fun v => v.p2.lateExpiry) h).trans hp

theorem Late.ite {c : Prop} [Decidable c] (h : Late s t) (k : Late s u) : Late s (if c then t else u) := by
  split
  · exact h
  · exact k

theorem Effect.late (h : Effect s t) : Late s t := fun p hp => by
  obtain ⟨_, _, _, e⟩ := h.port_eq p
  rw [e]
  exact hp

theorem Event.late (h : Event s t) : Late s t := h.effect.late

theorem setPort_late {p : Port} {q : PortState} (h : (s.port p).lateExpiry = true → q.lateExpiry = true) :
    Late s (setPort p q s) := fun x hx => by
  by_cases hp : x = p
  · rw [hp, setPort_port_self]
    exact h (hp ▸ hx)
  · rw [setPort_port_other (h := hp)]
    exact hx

theorem presenceStarted_late {q : PortState} (h : q.lateExpiry = true) : q.presenceStarted.lateExpiry = true := by
  simp [PortState.presenceStarted, h]

theorem presenceStopped_late {q : PortState} (h : q.lateExpiry = true) : q.presenceStopped.lateExpiry = true := by
  simp [PortState.presenceStopped, h]

theorem presenceStart_late {q : PortState} (h : q.lateExpiry = true) : q.presenceStart.lateExpiry = true := by
  unfold PortState.presenceStart
  split
  · exact h
  · exact presenceStarted_late h

theorem linkWrite_late (p : Port) (time : Nat) (v : Level) (a b : Bool) (s : State) : Late s (linkWrite p time v a b s) := by
  unfold linkWrite
  refine Late.trans (setPort_late fun h => ?_)
    (.ite (holdRemove_event _ _).late (.ite (holdInsert_link _ _ _).late (.refl _)))
  split
  · exact presenceStopped_late h
  · split
    · exact presenceStarted_late h
    · exact h

theorem configWrite_late (e : Entry) (list : List (Nat × Int)) (v : List Int) (s : State) : Late s (configWrite e list v s) := by
  cases e with
  | geometry => exact .trans (.of_lkp (by rfl)) ((formSums_event _).trans (settleCabins_event _ _)).late
  | zones | speeds | ring | windChannel c | faultBank b => exact .of_lkp rfl
  | boarding => exact .trans (.of_lkp (by rfl)) (settleCabins_event _ _).late
  | balance => exact .trans (.of_lkp (by rfl)) (balanceJudge_event _).late
  | inputGroup g => exact (inputsWrite_effect ..).late
  | linkPort p => exact linkWrite_late _ _ _ _ _ _

theorem commission_late (s : State) : Late s (commission s) := by
  have hstore : Late s (commissionStore s) := .of_lkp rfl
  have hbalance (t : State) : Late t (commissionBalance t) := .trans (.of_lkp (by rfl)) (formSums_event _).late
  have hpresence (t : State) : Late t (startPresence t) := fun p h => by
    cases p
    · exact presenceStart_late h
    · exact presenceStart_late h
  exact hstore.trans ((hbalance _).trans ((startRing_effect _).late.trans ((hpresence _).trans
    (.ite (seedAll_effect _).late (.refl _)))))

theorem decommission_late (s : State) : Late s (decommission s) := by
  let out : State := { s with cfs := { s.cfs with device := .config }, roc := s.roc.decommissioned }
  have hout : Late s (endMoves .decommission out) := .trans (t := out) (.of_lkp rfl) (endMoves_event .decommission out).late
  refine Late.trans (fun p h => ?_) (holdRemove_event .boarding _).late
  cases p
  · exact presenceStopped_late (hout .p1 h)
  · exact presenceStopped_late (hout .p2 h)

theorem warmReset_late (s : State) : Late s (warmReset s) := by
  refine .trans (fun p h => ?_) (warmReset_effect s).late
  cases p
  · exact presenceStopped_late (q := s.lkp.p1) h
  · exact presenceStopped_late (q := s.lkp.p2) h

/-! ### The answers -/

/-- The state of an accepted answer has the property. -/
structure Answer.Yields (a : Answer) (P : State → Prop) : Prop where
  yields : ∀ pl t, a = .accepted pl t → P t

variable {P : State → Prop}

theorem yields_refused (r : Reason) (n : Nat) : (Answer.refused r n).Yields P := ⟨fun _ _ h => (Answer.not_refused h).elim⟩

theorem yields_accepted {pl : List Byte} (h : P t) : (Answer.accepted pl t).Yields P := ⟨fun _ _ he => by cases he; exact h⟩

theorem yields_ite {a b : Answer} {c : Prop} [Decidable c] (h : a.Yields P) (k : b.Yields P) :
    Answer.Yields (if c then a else b) P := by
  split
  · exact h
  · exact k

theorem submission_yields {kind : MoveKind} {origin : MoveOrigin} (h : ∀ {sl m t}, submitMove kind origin s = .accepted sl m t → P t) :
    (submissionAnswer (submitMove kind origin s)).Yields P := by
  cases ha : submitMove kind origin s with
  | refused r n => exact yields_refused ..
  | accepted sl m t => exact yields_accepted (h ha)

theorem moveAnswer_yields {a : MoveAnswer} (h : ∀ t, a = .done t → P t) : (moveAnswer a).Yields P := by
  cases a with
  | refused r => exact yields_refused ..
  | done t => exact yields_accepted (h t rfl)

theorem stationInsert_event {p : Port} {r : Nat} {v : Level} (h : 1 ≤ r ∧ r ≤ 15)
    (hc : ¬((s.hold (stationHold p r)).isNone && decide (4 ≤ s.stationCount p)) = true) :
    Event s (holdInsert (stationHold p r) v s) := by
  refine holdInsert_event (stationHold_legal h) fun q hq hn => ?_
  obtain rfl := stationHold_of hq
  simpa [State.hold_isSome, hn, Option.isNone_iff_eq_none, ← Option.not_isSome_iff_eq_none] using hc

theorem holdSet_late (p : Port) (reason level : Nat) (s : State) : (answerHoldSet p reason level s).Yields (Late s) := by
  unfold answerHoldSet
  split
  · exact yields_refused ..
  · next hr =>
    split
    iterate 2 exact yields_refused ..
    dsimp only
    split
    · exact yields_refused ..
    · next hc => exact yields_accepted (stationInsert_event (Decidable.not_not.mp hr) hc).late

theorem groupWithdraw_late (id : Nat) (s : State) : (answerGroupWithdraw id s).Yields (Late s) := by
  unfold answerGroupWithdraw
  refine yields_ite (yields_refused ..) ?_
  split
  · exact yields_refused ..
  · exact yields_accepted (.trans (.of_lkp (by rfl)) (.ite (notify_event ..).late (.refl _)))

theorem faultMask_late (b code mask : Nat) (s : State) : (answerFaultMask b code mask s).Yields (Late s) := by
  unfold answerFaultMask
  split
  · exact yields_refused ..
  · split
    · exact yields_refused ..
    · exact yields_ite (yields_refused ..) (yields_ite (yields_refused ..) (yields_accepted (setBank_event ..).late))

theorem profileWrite_late (profile : Nat) (values : List Nat) (s : State) :
    (answerProfileWrite profile values s).Yields (Late s) := by
  unfold answerProfileWrite
  split
  · exact yields_refused ..
  · refine yields_ite (yields_refused ..) ?_
    split
    · exact yields_refused ..
    · split
      · exact yields_refused ..
      · exact yields_accepted (.of_lkp rfl)

/-- No request takes a late expiry's flag back (log 49). -/
theorem answer_late (p : Port) (r : Request) (s : State) : (answer p r s).Yields (Late s) := by
  have same (pl : List Byte) : (Answer.accepted pl s).Yields (Late s) := yields_accepted (.refl s)
  cases r with
  | status => exact yields_accepted (setPort_late id)
  | cabinRead k => exact yields_ite (same _) (yields_refused ..)
  | queueRead n => exact yields_ite (same _) (yields_refused ..)
  | holdList | moveRead | windRead | inputsRead | trialRead => exact same _
  | faultRead b =>
    simp only [answer, answerFaultRead]
    refine yields_ite (same _) ?_
    split
    · exact yields_refused ..
    · exact same _
  | configGet t i =>
    simp only [answer, answerConfigGet]
    split
    · exact yields_refused ..
    · split
      · exact yields_refused ..
      · exact same _
  | configSet t i vs =>
    simp only [answer, answerConfigSet]
    split
    · exact yields_refused ..
    · exact yields_accepted (configWrite_late _ _ _ _)
  | commission =>
    simp only [answer, answerCommission]
    refine yields_ite (yields_refused ..) ?_
    split
    · exact yields_refused ..
    · exact yields_accepted (commission_late s)
  | decommission => exact yields_ite (yields_accepted (decommission_late s)) (yields_refused ..)
  | restart => exact yields_ite (yields_accepted (warmReset_late s)) (yields_refused ..)
  | run on =>
    exact yields_ite (yields_accepted (.of_lkp rfl))
      (yields_ite (yields_ite (yields_accepted (.of_lkp rfl)) (yields_refused ..)) (yields_refused ..))
  | holdSet a b => exact holdSet_late ..
  | holdRelease a =>
    exact yields_ite (yields_refused ..) (yields_ite (yields_accepted (holdRemove_event ..).late) (yields_refused ..))
  | groupAdd a b c d =>
    simp only [answer, answerGroupAdd]
    split
    · exact yields_refused ..
    · exact yields_accepted (.trans (.of_lkp (by rfl)) (addNotice_event ..).late)
  | groupWithdraw a => exact groupWithdraw_late ..
  | doorRetry k =>
    exact yields_ite (yields_refused ..) (yields_ite (yields_accepted (queueCommand_event ..).late) (yields_refused ..))
  | factorClear g =>
    simp only [answer, answerFactorClear]
    split
    · exact yields_refused ..
    · exact yields_accepted (factorClear_effect ..).late
  | moveSubmit kind n =>
    have submitted (k : MoveKind) (o : MoveOrigin) : (submissionAnswer (submitMove k o s)).Yields (Late s) :=
      submission_yields fun h => (submitMove_event h).late
    exact yields_ite (submitted ..) (yields_ite (yields_ite (yields_refused ..) (submitted ..)) (yields_refused ..))
  | moveCancel n => exact moveAnswer_yields fun _ h => (cancelMove_event h).late
  | moveResume n => exact moveAnswer_yields fun _ h => (resumeMove_event h).late
  | cabinService k d =>
    exact yields_ite (yields_refused ..)
      (yields_ite (yields_refused ..) (yields_accepted (serviceChange_event _ (servedCabin_manifest ..)).late))
  | windProfileWrite a vs => exact profileWrite_late ..
  | windProfileSelect a =>
    simp only [answer, answerProfileSelect]
    split
    · exact yields_refused ..
    · exact yields_accepted (selectProfile_effect ..).late
  | faultAck b =>
    simp only [answer, answerFaultAck]
    split
    · exact yields_refused ..
    · exact yields_accepted (.ite ((setBank_event ..).trans (holdRemove_event ..)).late (.refl _))
  | faultClear b =>
    simp only [answer, answerFaultClear]
    split
    · exact yields_refused ..
    · exact yields_ite (yields_refused ..) (yields_accepted (setBank_event ..).late)
  | counterClear b =>
    simp only [answer, answerCounterClear]
    split
    · exact yields_refused ..
    · exact yields_accepted (setBank_event ..).late
  | faultMask a b c => exact faultMask_late ..
  | decelTrialStart => exact yields_ite (yields_accepted (.of_lkp rfl)) (yields_refused ..)
  | clearTrip => exact yields_ite (yields_accepted (.of_lkp rfl)) (yields_refused ..)

/-! ### The port's events -/

theorem handleFrame_late (p : Port) (f : Frame) (s : State) : Late s (handleFrame p f s) := by
  let claimed := setPort p { s.port p with reply := some (refusalFrame f .unknownKind 0) } s
  have hanswer : Late claimed (answerState claimed (judgeFrame p f claimed)) := by
    cases ha : judgeFrame p f claimed with
    | refused r n => exact .refl _
    | accepted pl t =>
      obtain ⟨r, -, hr⟩ := judgeFrame_read ha
      exact (answer_late p r claimed).yields pl t hr
  have hclaimed : Late s claimed := setPort_late id
  exact hclaimed.trans (hanswer.trans (setPort_late id))

theorem takeFrame_late (p : Port) (s : State) : Late s (takeFrame p s) := by
  unfold takeFrame
  split
  · exact .refl s
  · next f rest _ =>
    have hrest : Late s (setPort p { s.port p with fifo := rest } s) := setPort_late id
    exact .ite (hrest.trans (handleFrame_late p f _)) (.refl s)

theorem pump_late (p : Port) (s : State) : Late s (pump p s) := by
  refine setPort_late fun h => ?_
  unfold PortState.pumped
  split
  · exact h
  · split
    · exact h
    · split <;> exact h

theorem settlePort_late (p : Port) (s : State) : Late s (settlePort p s) :=
  (takeFrame_late p s).trans ((pump_late p _).trans (takeFrame_late p _))

/-- A frame heard while the presence timer's expiry waits makes the expiry late (R152, log 49). -/
theorem frameArrives_late {p : Port} (f : Frame) {x : PresenceTimer} (hl : (s.port p).fifo.length < 2)
    (hd : s.cfs.device = .service) (ht : (s.port p).presenceTime ≠ 0) (hx : (s.port p).presence = some x)
    (he : x.time * 1000 ≤ x.elapsed) : ((frameArrives p f s).port p).lateExpiry = true := by
  obtain ⟨_, _, _, hport⟩ := holdRemove_port (.link p) s p
  have hjoin : (joinFifo p f (holdRemove (.link p) s)).port p =
      { (holdRemove (.link p) s).port p with fifo := ((holdRemove (.link p) s).port p).fifo ++ [f] } := setPort_port_self ..
  have hreached : ((joinFifo p f (holdRemove (.link p) s)).port p).presenceReached = true := by
    simp [hjoin, hport, PortState.presenceReached, hx, he]
  rw [frameArrives_room f hl, heard_service]
  · refine settlePort_late p _ p ?_
    rw [setPort_port_self, PortState.presenceStarted]
    simp [hreached]
  · exact (congrArg Cfs.device (holdRemove_event (.link p) s).cfs).trans hd
  · rw [hjoin, hport]
    exact ht

end Late

/-! ### The expiry itself -/

section Expiry

variable {p : Port} {s : State}

theorem presenceExpires_late (h : (s.port p).presence = none ∨ (s.port p).lateExpiry = true) : presenceExpires p s = s := by
  refine if_neg ?_
  rcases h with h | h <;> simp [h]

theorem presenceExpires_due (h : (s.port p).presence.isSome = true) (hl : (s.port p).lateExpiry = false) :
    presenceExpires p s = report .presenceLost (some (portNumber p))
      (holdInsert (.link p) (s.port p).presenceLevel (setPort p { s.port p with presence := none } s)) := by
  refine (if_pos (by simp [h, hl])).trans ?_
  dsimp only
  rw [setPort_port_self]

/-- An expiry command that finds nothing to do leaves the state, whether a reset is held or not. -/
theorem exec_presenceExpiry_idle (h : (s.port p).presence = none ∨ (s.port p).lateExpiry = true) :
    exec (.presenceTimerExpiry p) s = .next s := by
  refine congrArg Host.Outcome.next ?_
  unfold unlessReset
  split
  · rfl
  · exact presenceExpires_late h

end Expiry

/-- Settles O28: an expiry that runs inserts the entry and reports; what the report does to the bank is O19's. -/
theorem presenceExpiryHoldsRide : Obligations.PresenceExpiryHoldsRide := by
  intro p s hreset
  refine ⟨exec_presenceExpiry_idle, fun f x hl hd ht hx he =>
    exec_presenceExpiry_idle (.inr (frameArrives_late f hl hd ht hx he)), fun hp hlate hlevel => ?_⟩
  intro u t b d record
  let stopped : State := setPort p { s.port p with presence := none } s
  have hins : Event stopped u := holdInsert_link p _ stopped
  obtain ⟨huntouched, hothers, hown, hformed⟩ := holdInsert_content (id := .link p) hlevel HoldId.noConfusion stopped
  have hbank (x : BankId) : u.bank x = s.bank x := bank_congr huntouched.fbu x
  have hrep : Event u t := report_event ..
  have hhlu : t.hlu = u.hlu := report_hlu_without_action _ u rfl
  have hbef : Event stopped t := hins.trans hrep
  have hpres : (t.port p).presence = none := by
    obtain ⟨_, _, _, hport⟩ := hbef.effect.port_eq p
    rw [hport]
    exact congrArg PortState.presence (setPort_port_self ..)
  have hmask : (u.bank .link).mask.getLsbD 23 = b.mask.getLsbD 23 :=
    congrArg (fun x : Bank => x.mask.getLsbD 23) (hbank .link)
  obtain ⟨masked, unmasked⟩ := reportFillsBankAndHoldsRide .presenceLost (some (portNumber p)) u
  replace masked := masked rfl
  refine ⟨congrArg _ ((unlessReset_running hreset).trans (presenceExpires_due hp hlate)), hpres,
    (hold_congr hhlu _).trans hown, ?formed, fun i hi hb => (hold_congr hhlu i).trans (hothers i hi hb), ?masked, ?counted,
    ?banks, hbef.ptr, hbef.wmn, hbef.pim, hbef.cfs⟩
  case formed => rw [hhlu, hformed]
  case masked =>
    intro hm
    have ht : t = u := masked (hmask.trans hm)
    exact ⟨ht, (congrArg State.fbu ht).trans huntouched.fbu⟩
  case counted =>
    intro hm
    obtain ⟨-, hcount, hempty, hreplaced, hkept, -, -, -, -, -, hhold, -⟩ := unmasked (hmask.trans hm)
    obtain ⟨hcounter, hreached⟩ := hcount FaultClass.noConfusion
    have hclass (r : FaultRecord) : r.code.cls.code < FaultCode.presenceLost.cls.code ↔ r.code.cls = .correctable := by
      cases r.code.cls <;> decide
    rw [show u.bank FaultCode.presenceLost.bank = b from hbank .link] at hcounter hreached hempty hreplaced hkept hhold
    rw [hins.ptr, hins.cfs] at hempty hreplaced
    exact ⟨hcounter, hreached, hempty, fun r hr hc => hreplaced r hr ((hclass r).mpr hc),
      fun r hr hc => hkept r hr (Nat.le_of_not_lt fun h => hc ((hclass r).mp h)), (hhold rfl).1⟩
  case banks =>
    intro x hx
    cases hm : b.mask.getLsbD 23 with
    | true => exact (congrArg (State.bank · x) (masked (hmask.trans hm))).trans (hbank x)
    | false =>
      obtain ⟨-, -, -, -, -, -, -, -, -, hother, -⟩ := unmasked (hmask.trans hm)
      exact (hother x hx).trans (hbank x)

end Sys2Proof.Machine

/-! Proofs: what a change of the effective level does to wheel, moves and trial (R25, R51, R58, R139), and CLEAR_TRIP (R26). -/

namespace Sys2Proof.Machine

section HandOver

variable {s : State} {previous : Level}

theorem noticed_port {t : State} {ns : List Notice} (h : t.lkp = s.lkp.noticed ns) (p : Port) :
    t.port p = ns.foldl (fun q n => portNotice n q) (s.port p) := by
  cases p
  · exact congrArg Lkp.p1 h
  · exact congrArg Lkp.p2 h

theorem noticed_nil (v : Lkp) : v.noticed [] = v := rfl

/-! ### The trip (R25) -/

theorem tripRoc_lifted {r : Roc} (h : brakeEnergised r.rotation = true) :
    tripRoc r = { r with
      rotation := .tripped, vCmd := 0, driveRef := 0, releaseTimer := none, standTimer := none, tracking := 0
      grace := none, trialStep := false, waitingDriveReady := false, brakeConfirmed := r.brakeSet
      brakeSetTimer := if r.brakeSet then none else some 0 } := by
  rw [tripRoc, if_pos h, brakeSetStart_eq]

theorem tripRoc_set {r : Roc} (h : brakeEnergised r.rotation = false) :
    tripRoc r = { r with
      rotation := .tripped, vCmd := 0, driveRef := 0, releaseTimer := none, standTimer := none, tracking := 0
      grace := none, trialStep := false, waitingDriveReady := false } := by
  simp only [tripRoc, h, Bool.false_eq_true, ↓reduceIte]

/-- A trip of a wheel not yet TRIPPED, with its notice (R25). -/
theorem trip_moving (h : s.roc.rotation ≠ .tripped) :
    trip s = { s with
      roc := tripRoc s.roc
      lkp := s.lkp.noticed [.trip s.roc.rotation s.roc.vCmd s.ptr.speed s.ptr.angle s.ptr.referenced s.cfs.clock] } :=
  if_neg h

theorem trip_eq (s : State) : ∃ r ns, trip s = { s with roc := r, lkp := s.lkp.noticed ns } ∧
    (s.roc.rotation = .tripped → r = s.roc) ∧ (s.roc.rotation ≠ .tripped → r = tripRoc s.roc) ∧
    ns = if s.roc.rotation = .tripped then [] else
      [.trip s.roc.rotation s.roc.vCmd s.ptr.speed s.ptr.angle s.ptr.referenced s.cfs.clock] := by
  by_cases h : s.roc.rotation = .tripped
  · exact ⟨s.roc, [], if_pos h, fun _ => rfl, fun hn => absurd h hn, (if_pos h).symm⟩
  · exact ⟨_, _, trip_moving h, fun hn => absurd hn h, fun _ => rfl, (if_neg h).symm⟩

theorem trip_tripped (h : s.roc.rotation = .tripped) : trip s = s := if_pos h

/-! ### The ends of moves (R51 to R53) -/

/-- Slot A's part of the moves' end. -/
def endSlotA (c : MoveCause) (s : State) : State :=
  match s.mvu.slotA with
  | none => s
  | some m =>
    if m.occupiesA then moveChanged .a (some { m with status := .aborted, cause := some c }) (limitRemove .move s) else s

/-- Slot B's part of the moves' end. -/
def endSlotB (s : State) : State :=
  match s.mvu.slotB with
  | none => s
  | some m => if m.status = .pending then moveChanged .b (some { m with status := .cancelled }) s else s

theorem endMoves_eq (c : MoveCause) (s : State) : endMoves c s = endSlotB (endSlotA c s) := rfl

/-- Slot A's end: its record, the limit points, the boarding move and its notices. -/
theorem endSlotA_eq (c : MoveCause) (s : State) : ∃ a l b ns,
    endSlotA c s = { s with
      mvu := { s.mvu with slotA := a }, roc := { s.roc with limits := l }, bsq := { s.bsq with boardingMove := b }
      lkp := s.lkp.noticed ns } ∧
    (∀ m, s.mvu.slotA = some m → m.occupiesA = true →
      a = some { m with status := .aborted, cause := some c } ∧ l = (s.roc.limits.filter fun e => e.origin != .move) ∧
        ns = [.moveStatus .a (some { m with status := .aborted, cause := some c })]) ∧
    ((∀ m, s.mvu.slotA = some m → m.occupiesA = false) → a = s.mvu.slotA ∧ l = s.roc.limits ∧ ns = []) := by
  unfold endSlotA
  split
  · next h => exact ⟨_, _, _, [], rfl, fun m hm => absurd (h.symm.trans hm) nofun, fun _ => ⟨rfl, rfl, rfl⟩⟩
  · next m h =>
    split
    · next ho =>
      refine ⟨_, _, _, [_], rfl, fun x hx _ => ?_, fun hn => absurd (ho.symm.trans (hn m h)) nofun⟩
      obtain rfl := Option.some.inj (h.symm.trans hx)
      exact ⟨rfl, rfl, rfl⟩
    · next ho =>
      refine ⟨_, _, _, [], rfl, fun x hx hxo => ?_, fun _ => ⟨rfl, rfl, rfl⟩⟩
      obtain rfl := Option.some.inj (h.symm.trans hx)
      exact absurd hxo ho

/-- Slot B's end: its record, the boarding move and its notices. -/
theorem endSlotB_eq (s : State) : ∃ x b ns,
    endSlotB s = { s with
      mvu := { s.mvu with slotB := x }, bsq := { s.bsq with boardingMove := b }, lkp := s.lkp.noticed ns } ∧
    (∀ m, s.mvu.slotB = some m → m.status = .pending →
      x = some { m with status := .cancelled } ∧ ns = [.moveStatus .b (some { m with status := .cancelled })]) ∧
    ((∀ m, s.mvu.slotB = some m → m.status ≠ .pending) → x = s.mvu.slotB ∧ ns = []) := by
  unfold endSlotB
  split
  · next h => exact ⟨_, _, [], rfl, fun m hm => absurd (h.symm.trans hm) nofun, fun _ => ⟨rfl, rfl⟩⟩
  · next m h =>
    split
    · next hp =>
      refine ⟨_, _, [_], rfl, fun x hx _ => ?_, fun hn => absurd hp (hn m h)⟩
      obtain rfl := Option.some.inj (h.symm.trans hx)
      exact ⟨rfl, rfl⟩
    · next hp =>
      refine ⟨_, _, [], rfl, fun x hx hxp => ?_, fun _ => ⟨rfl, rfl⟩⟩
      obtain rfl := Option.some.inj (h.symm.trans hx)
      exact absurd hxp hp

/-! ### The abort of a trial (R58) -/

/-- A trial's record once it has been aborted in s (R58). -/
def State.abortedTrial (s : State) (c : TrialAbort) : Trial :=
  { s.mvu.trial with
    status := .aborted, abortCause := some c, aEffAfter := some s.roc.aEff, endTime := some s.cfs.clock }

theorem abortTrial_measuring {c : TrialAbort} (h : s.mvu.trial.status = .measuring) :
    abortTrial c s = { s with
      mvu := { s.mvu with trial := s.abortedTrial c }, lkp := s.lkp.noticed [.trialDone (s.abortedTrial c)] } := if_pos h

theorem abortTrial_idle {c : TrialAbort} (h : s.mvu.trial.status ≠ .measuring) : abortTrial c s = s := if_neg h

theorem abortTrial_eq (c : TrialAbort) (s : State) :
    abortTrial c s = { s with
      mvu := { s.mvu with trial := if s.mvu.trial.status = .measuring then s.abortedTrial c else s.mvu.trial }
      lkp := s.lkp.noticed (if s.mvu.trial.status = .measuring then [.trialDone (s.abortedTrial c)] else []) } := by
  split
  · next h => rw [abortTrial_measuring h]
  · next h => rw [abortTrial_idle h, noticed_nil]

/-! ### The hand-over by level (R139) -/

theorem handToWheel_same (h : s.hlu.effective = previous) : handToWheel previous s = s := by
  rw [handToWheel, if_neg (fun k => k.2 (h.symm.trans k.1)), moveUnitLevel, if_pos h]

theorem handToWheel_low (hs : s.hlu.effective ≠ .stop) (hp : s.hlu.effective ≠ .park) : handToWheel previous s = s := by
  rw [handToWheel, if_neg (fun k => hp k.1), moveUnitLevel]
  split
  · rfl
  · split
    · exact absurd ‹_› hp
    · exact absurd ‹_› hs
    all_goals rfl

theorem handToWheel_stop (h : s.hlu.effective = .stop) (hp : previous ≠ .stop) :
    handToWheel previous s = abortTrial .level s := by
  rw [handToWheel, if_neg (fun k => Level.noConfusion (h.symm.trans k.1)), moveUnitLevel, if_neg (fun k => hp (k.symm.trans h))]
  simp only [h]

theorem trip_hlu (s : State) : (trip s).hlu = s.hlu := (trip_handOver s).hlu

theorem handToWheel_park (h : s.hlu.effective = .park) (hp : previous ≠ .park) :
    handToWheel previous s = abortTrial .level (endMoves .holdPark (trip s)) := by
  have ht : (trip s).hlu.effective = .park := (congrArg Hlu.effective (trip_hlu s)).trans h
  rw [handToWheel, if_pos ⟨h, hp⟩, moveUnitLevel, if_neg (fun k => hp (k.symm.trans ht))]
  simp only [ht]

end HandOver

/-! ### The whole change, and CLEAR_TRIP -/

theorem Move.occupiesA_iff (m : Move) : m.occupiesA = true ↔ m.status = .active ∨ m.status = .arrived := by
  simp [Move.occupiesA]

theorem answerClearTrip_accepted {s : State} (hr : s.roc.rotation = .tripped) (hs : s.ptr.standstill = true)
    (hp : s.hlu.effective ≠ .park) :
    answerClearTrip s = .accepted (be1 Rotation.braked.code) { s with roc := { s.roc with rotation := .braked } } :=
  if_pos ⟨hr, hs, hp⟩

/-- Settles O44: the change to PARK as trip, end of slot A, end of slot B and trial abort, each with its own notices. -/
theorem clearTripBrakesTrippedWheel : Obligations.ClearTripBrakesTrippedWheel := by
  refine ⟨fun previous s => ?_, fun tag s hfree => ?_⟩
  · intro t
    refine ⟨?_, handToWheel_stop, fun h hp => ?_⟩
    · rintro (h | ⟨hs, hp⟩)
      · exact handToWheel_same h
      · exact handToWheel_low hs hp
    intro lifted parked dropped under trial
    obtain ⟨r, trips', htrip, hroc, hroc', htrips⟩ := trip_eq s
    obtain ⟨a, l, b, movesA', hA, hunder, hfreeA⟩ := endSlotA_eq .holdPark (trip s)
    obtain ⟨x, b', movesB', hB, hpending, hfreeB⟩ := endSlotB_eq (endSlotA .holdPark (trip s))
    have ht : t = abortTrial .level (endSlotB (endSlotA .holdPark (trip s))) := handToWheel_park h hp
    rw [abortTrial_eq, hB, hA, htrip] at ht
    rw [htrip] at hunder hfreeA
    rw [hA, htrip] at hpending hfreeB
    have haEff : r.aEff = s.roc.aEff := by
      by_cases hr : s.roc.rotation = .tripped
      · rw [hroc hr]
      · rw [hroc' hr]
        exact congrArg (fun k => k.2.1) (tripRoc_drive s.roc).2
    have hlimits : r.limits = s.roc.limits := by
      have := trip_limits s
      rwa [htrip] at this
    have hunder' (m : Move) (hm : s.mvu.slotA = some m) (hu : under m) := hunder m hm (m.occupiesA_iff.mpr hu)
    have hfree' (hf : ∀ m, s.mvu.slotA = some m → ¬under m) := hfreeA fun m hm =>
      Bool.eq_false_iff.mpr fun ho => hf m hm (m.occupiesA_iff.mp ho)
    have htroc : t.roc = { r with limits := l } := congrArg State.roc ht
    have htrial : t.mvu.trial = if s.mvu.trial.status = .measuring then trial else s.mvu.trial := by
      rw [ht]
      simp only [State.abortedTrial, haEff]
      rfl
    have hports : t.lkp = s.lkp.noticed (trips' ++ movesA' ++ movesB' ++
        if s.mvu.trial.status = .measuring then [.trialDone trial] else []) := by
      rw [ht]
      simp only [State.abortedTrial, haEff, Lkp.noticed_noticed]
      rfl
    refine ⟨fun hr => ?tripped, fun hr => ?moving, fun m hm hu => ?under, fun hf => ?free, fun m hm hs => ?pending,
      fun hf => ?kept, htrial, ?notices, ?_⟩
    case tripped => rw [htroc, hroc hr]
    case moving =>
      rw [htroc, hroc' hr]
      cases he : brakeEnergised s.roc.rotation with
      | true =>
        have hl : lifted := by
          revert he
          simp only [lifted]
          cases s.roc.rotation <;> decide
        rw [tripRoc_lifted he, if_pos hl, if_pos hl]
      | false =>
        have hl : ¬lifted := by
          revert he
          simp only [lifted]
          cases s.roc.rotation <;> decide
        rw [tripRoc_set he, if_neg hl, if_neg hl]
    case under =>
      obtain ⟨ha, hlim, -⟩ := hunder' m hm hu
      refine ⟨(congrArg (fun u => u.mvu.slotA) ht).trans ha, ?_⟩
      rw [htroc, hlim, hlimits]
    case free =>
      obtain ⟨ha, hlim, -⟩ := hfree' hf
      refine ⟨(congrArg (fun u => u.mvu.slotA) ht).trans ha, ?_⟩
      rw [htroc, hlim, hlimits]
    case pending => exact (congrArg (fun u => u.mvu.slotB) ht).trans (hpending m hm hs).1
    case kept => exact (congrArg (fun u => u.mvu.slotB) ht).trans (hfreeB hf).1
    case notices =>
      intro trips movesA movesB trials h1 h2 h2' h3 h3' h4 p
      have hmovesA : movesA = movesA' := by
        by_cases hu : ∃ m, s.mvu.slotA = some m ∧ under m
        · obtain ⟨m, hm, hu⟩ := hu
          exact (h2 m hm hu).trans (hunder' m hm hu).2.2.symm
        · have hf : ∀ m, s.mvu.slotA = some m → ¬under m := fun m hm k => hu ⟨m, hm, k⟩
          exact (h2' hf).trans (hfree' hf).2.2.symm
      have hmovesB : movesB = movesB' := by
        by_cases hu : ∃ m, s.mvu.slotB = some m ∧ m.status = .pending
        · obtain ⟨m, hm, hu⟩ := hu
          exact (h3 m hm hu).trans (hpending m hm hu).2.symm
        · have hf : ∀ m, s.mvu.slotB = some m → m.status ≠ .pending := fun m hm k => hu ⟨m, hm, k⟩
          exact (h3' hf).trans (hfreeB hf).2.symm
      rw [noticed_port hports p, hmovesA, hmovesB, h1, h4, htrips]
    rw [ht]
    exact ⟨rfl, rfl, rfl, rfl, rfl, rfl, rfl, rfl⟩
  · intro f u
    have hrefused (h : ¬(s.roc.rotation = .tripped ∧ s.ptr.standstill = true ∧ s.hlu.effective ≠ .park)) :
        answerClearTrip u = .refused .wrongState 0 := by
      refine if_neg ?_
      simp only [u, taken_roc, taken_ptr, taken_hlu]
      exact h
    refine ⟨fun hr hs hp => request_accepts hfree rfl (answerClearTrip_accepted ?_ ?_ ?_), fun h =>
      request_refuses hfree rfl (hrefused ?_)⟩
    · simpa only [taken_roc] using hr
    · simpa only [taken_ptr] using hs
    · simpa only [taken_hlu] using hp
    · rintro ⟨hr, hs, hp⟩
      rcases h with h | h | h
      · exact h hr
      · exact absurd (hs.symm.trans h) nofun
      · exact hp h

end Sys2Proof.Machine

/-! Proofs: the station holds, whole: the set's own part, the hand-overs and the bring-home judgement (R98, R136 to R141). -/

namespace Sys2Proof.Machine

/-! ### The set's own part (R136, R138) -/

section Forming

variable {s : State} {id : HoldId} {v : Level}

theorem placeEntry_new {e : HoldEntry} {l : List HoldEntry} (h : e.id ∉ l.map HoldEntry.id) : placeEntry e l = l ++ [e] := by
  induction l with
  | nil => rfl
  | cons x xs ih =>
    simp only [List.map_cons, List.mem_cons, not_or] at h
    rw [placeEntry, if_neg (Ne.symm h.1), ih h.2, List.cons_append]

theorem placeEntry_old {e old : HoldEntry} {before later : List HoldEntry} (ho : old.id = e.id)
    (h : e.id ∉ before.map HoldEntry.id) : placeEntry e (before ++ old :: later) = before ++ e :: later := by
  induction before with
  | nil => rw [List.nil_append, placeEntry, if_pos ho, List.nil_append]
  | cons x xs ih =>
    simp only [List.map_cons, List.mem_cons, not_or] at h
    rw [List.cons_append, placeEntry, if_neg (Ne.symm h.1), ih h.2, List.cons_append]

theorem hold_eq_none_iff : s.hold id = none ↔ id ∉ s.hlu.entries.map HoldEntry.id := by
  rw [← Option.not_isSome_iff_eq_none, State.hold_isSome, decide_eq_true_eq]

/-- Forming the set touches the set and, by its notice, the ports (R138). -/
theorem holdForm_rest (id : HoldId) (c : HoldChange) (v : Option Level) (l : List HoldEntry) (s : State) :
    holdForm id c v l s = { s with hlu := (holdForm id c v l s).hlu, lkp := (holdForm id c v l s).lkp } := by
  unfold holdForm
  dsimp only
  split <;> rfl

theorem holdForm_hlu (id : HoldId) (c : HoldChange) (v : Option Level) (l : List HoldEntry) (s : State) :
    (holdForm id c v l s).hlu.entries = l ∧ (holdForm id c v l s).hlu.effective = highestLevel l ∧
      (holdForm id c v l s).hlu.other = highestLevel (l.filter fun e => e.id != .boarding) := by
  rw [holdForm_spec]
  exact ⟨rfl, rfl, rfl⟩

theorem holdForm_port (id : HoldId) (c : HoldChange) (v : Option Level) (l : List HoldEntry) (s : State) (p : Port) :
    let x := holdForm id c v l s
    x.port p = if x.hlu.effective = s.hlu.effective then s.port p
      else portNotice (.levelChanged x.hlu.effective s.hlu.effective id c v x.hlu.entries.length s.cfs.clock) (s.port p) := by
  obtain ⟨he, heff, -⟩ := holdForm_hlu id c v l s
  intro x
  rw [he, heff]
  simp only [x, holdForm]
  split
  · rfl
  · cases p <;> rfl

/-- No entry's level is above the highest (R138). -/
theorem code_le_highestLevel {e : HoldEntry} {l : List HoldEntry} (h : e ∈ l) : e.level.code ≤ (highestLevel l).code := by
  have rises (l : List HoldEntry) (a : Level) : a.code ≤ (l.foldl (fun v e => v.max e.level) a).code := by
    induction l generalizing a with
    | nil => exact Nat.le_refl _
    | cons x xs ih =>
      refine Nat.le_trans ?_ (ih _)
      rw [Level.code_max]
      exact Nat.le_max_left ..
  have reached (l : List HoldEntry) (a : Level) (h : e ∈ l) : e.level.code ≤ (l.foldl (fun v e => v.max e.level) a).code := by
    induction l generalizing a with
    | nil => cases h
    | cons x xs ih =>
      rcases List.mem_cons.mp h with rfl | h
      · refine Nat.le_trans ?_ (rises xs _)
        rw [Level.code_max]
        exact Nat.le_max_right ..
      · exact ih _ h
  exact reached l _ h

theorem mem_placeEntry_self (e : HoldEntry) (l : List HoldEntry) : e ∈ placeEntry e l := by
  have h := find_placeEntry e l
  exact List.mem_of_find?_eq_some h

/-- An insertion brings the effective level to its own at least (R138). -/
theorem holdFormInsert_level (id : HoldId) (v : Level) (s : State) : v.code ≤ (holdFormInsert id v s).hlu.effective.code := by
  rw [holdFormInsert, (holdForm_hlu ..).2.1]
  exact code_le_highestLevel (e := { id := id, level := v, time := s.cfs.clock }) (mem_placeEntry_self _ _)

/-- The bring-home entry does not count in the other level (R138). -/
theorem filter_placeEntry_boarding {e : HoldEntry} (h : e.id = .boarding) (l : List HoldEntry) :
    ((placeEntry e l).filter fun x => x.id != .boarding) = l.filter fun x => x.id != .boarding := by
  have hf (x : HoldEntry) (hx : x.id = .boarding) (xs : List HoldEntry) :
      ((x :: xs).filter fun x => x.id != .boarding) = xs.filter fun x => x.id != .boarding :=
    List.filter_cons_of_neg (by simp [hx])
  induction l with
  | nil => exact hf e h []
  | cons x xs ih =>
    rw [placeEntry]
    split
    · next hx => rw [hf e h, hf x (hx.trans h)]
    · rw [List.filter_cons, List.filter_cons, ih]

theorem filter_boarding_filter (l : List HoldEntry) :
    ((l.filter fun x => x.id != .boarding).filter fun x => x.id != .boarding) = l.filter fun x => x.id != .boarding :=
  List.filter_filter.trans (by simp)

end Forming

/-! ### Through the hand-over (R139) -/

section HandOver

variable {s : State} {previous : Level}

theorem abortTrial_fields (c : TrialAbort) (s : State) : ∃ m l, abortTrial c s = { s with mvu := m, lkp := l } :=
  ⟨_, _, abortTrial_eq c s⟩

/-- The limit points but for the moves' own. -/
def otherLimits (l : List LimitPoint) : List LimitPoint := l.filter fun e => e.origin != .move

/-- What the moves' end touches; no entry but MOVE is theirs. -/
theorem endMoves_fields (c : MoveCause) (s : State) : ∃ a x l b ns,
    endMoves c s = { s with
      mvu := { s.mvu with slotA := a, slotB := x }, roc := { s.roc with limits := l }
      bsq := { s.bsq with boardingMove := b }, lkp := s.lkp.noticed ns } ∧
    otherLimits l = otherLimits s.roc.limits := by
  obtain ⟨a, l, b, ms, hA, hunder, hfree⟩ := endSlotA_eq c s
  obtain ⟨x, b', ms', hB, -⟩ := endSlotB_eq (endSlotA c s)
  refine ⟨a, x, l, b', ms ++ ms', ?_, ?_⟩
  · rw [endMoves_eq, hB, hA, ← Lkp.noticed_noticed]
  · by_cases ho : ∃ m, s.mvu.slotA = some m ∧ m.occupiesA = true
    · obtain ⟨m, hm, ho⟩ := ho
      rw [(hunder m hm ho).2.1, otherLimits, List.filter_filter]
      simp only [Bool.and_self, otherLimits]
    · rw [(hfree fun m hm => Bool.eq_false_iff.mpr fun k => ho ⟨m, hm, k⟩).2.1]

/-- What the hand-over touches: moves and trial, the boarding move, the Rotation Controller with no entry but MOVE, and the
ports. -/
theorem handToWheel_fields (previous : Level) (s : State) : ∃ m r b l,
    handToWheel previous s = { s with mvu := m, roc := r, bsq := { s.bsq with boardingMove := b }, lkp := l } ∧
      otherLimits r.limits = otherLimits s.roc.limits := by
  by_cases hsame : s.hlu.effective = previous
  · exact ⟨_, _, _, _, handToWheel_same hsame, rfl⟩
  by_cases hstop : s.hlu.effective = .stop
  · obtain ⟨m, l, h⟩ := abortTrial_fields .level s
    exact ⟨m, _, _, l, (handToWheel_stop hstop fun k => hsame (hstop.trans k.symm)).trans h, rfl⟩
  by_cases hpark : s.hlu.effective = .park
  · obtain ⟨a, x, l, b, ns, hend, hdoors⟩ := endMoves_fields .holdPark (trip s)
    obtain ⟨m, k, habort⟩ := abortTrial_fields .level (endMoves .holdPark (trip s))
    refine ⟨m, { (trip s).roc with limits := l }, b, k, ?_, hdoors.trans (by rw [trip_limits])⟩
    rw [handToWheel_park hpark fun k => hsame (hpark.trans k.symm), habort, hend, trip_rest]
  · exact ⟨_, _, _, _, handToWheel_low hstop hpark, rfl⟩

theorem handToWheel_cfs (previous : Level) (s : State) : (handToWheel previous s).cfs = s.cfs := by
  obtain ⟨_, _, _, _, h, -⟩ := handToWheel_fields previous s
  rw [h]

theorem find_of_otherLimits {o : LimitOrigin} (ho : o ≠ .move) {l m : List LimitPoint} (h : otherLimits l = otherLimits m) :
    (l.find? fun e => e.origin == o) = m.find? fun e => e.origin == o := by
  have through (l : List LimitPoint) : (l.find? fun e => e.origin == o) = (otherLimits l).find? fun e => e.origin == o := by
    rw [otherLimits, List.find?_filter]
    refine find_of_agree fun e _ => ?_
    by_cases he : e.origin = o
    · simp [he, ho]
    · simp [he]
  rw [through l, through m, h]

/-- The hand-over of a change leaves every limit point but the moves' own (R51). -/
theorem handToWheel_limit {o : LimitOrigin} (ho : o ≠ .move) (previous : Level) (s : State) :
    (handToWheel previous s).limit o = s.limit o := by
  obtain ⟨_, _, _, _, h, hl⟩ := handToWheel_fields previous s
  rw [h]
  exact find_of_otherLimits ho hl

theorem handToWheel_tripped (h : s.roc.rotation = .tripped) : (handToWheel previous s).roc.rotation = .tripped := by
  unfold handToWheel
  have hmove (u : State) (hu : u.roc.rotation = .tripped) : (moveUnitLevel previous u).roc.rotation = .tripped := by
    rcases (moveUnitLevel_event previous u).roc with ht | ht
    · exact ht
    · rw [ht]
      exact hu
  refine hmove _ ?_
  split
  · exact trip_rotation s
  · exact h

theorem handToWheel_trips (h : s.hlu.effective = .park) (hp : previous ≠ .park) :
    (handToWheel previous s).roc.rotation = .tripped := by
  rw [handToWheel, if_pos ⟨h, hp⟩]
  rcases (moveUnitLevel_event previous (trip s)).roc with ht | ht
  · exact ht
  · rw [ht]
    exact trip_rotation s

/-- The trip and the moves' end leave the trial, and what its record takes from the other blocks. -/
theorem parked_trial (c : MoveCause) (s : State) :
    (endMoves c (trip s)).mvu.trial = s.mvu.trial ∧ (endMoves c (trip s)).roc.aEff = s.roc.aEff ∧
      (endMoves c (trip s)).cfs = s.cfs := by
  obtain ⟨_, _, _, _, _, hend, -⟩ := endMoves_fields c (trip s)
  have hkept : (trip s).roc.aEff = s.roc.aEff := congrArg (fun k => k.2.1) (trip_kept s)
  rw [hend]
  refine ⟨?_, hkept, ?_⟩
  · rw [trip_rest]
  · rw [trip_rest]

/-- A trial that does not measure is not the change's business. -/
theorem handToWheel_idle (h : s.mvu.trial.status ≠ .measuring) : (handToWheel previous s).mvu.trial = s.mvu.trial := by
  by_cases hsame : s.hlu.effective = previous
  · rw [handToWheel_same hsame]
  by_cases hstop : s.hlu.effective = .stop
  · rw [handToWheel_stop hstop fun k => hsame (hstop.trans k.symm), abortTrial_idle h]
  by_cases hpark : s.hlu.effective = .park
  · have htrial := (parked_trial .holdPark s).1
    rw [handToWheel_park hpark fun k => hsame (hpark.trans k.symm), abortTrial_idle (by rw [htrial]; exact h), htrial]
  · rw [handToWheel_low hstop hpark]

/-- A rise to STOP or PARK aborts a measuring trial (R58). -/
theorem handToWheel_aborts (h : s.mvu.trial.status = .measuring) (hl : s.hlu.effective = .stop ∨ s.hlu.effective = .park)
    (hs : previous ≠ .stop) (hp : previous ≠ .park) : (handToWheel previous s).mvu.trial = s.abortedTrial .level := by
  rcases hl with hl | hl
  · rw [handToWheel_stop hl hs, abortTrial_measuring h]
  · obtain ⟨htrial, haEff, hcfs⟩ := parked_trial .holdPark s
    rw [handToWheel_park hl hp, abortTrial_measuring (by rw [htrial]; exact h)]
    simp only [State.abortedTrial, htrial, haEff, hcfs]

end HandOver

/-! ### The bring-home judgement (R98) -/

section BringHome

variable {s t : State}

theorem bringHome_config (h : s.cfs.device = .config) : s.bringHome = .leave := if_neg (by rw [h]; nofun)

theorem bringHome_other (h : s.cfs.device = .service) (ho : s.hlu.other ≠ .unloadOnly) :
    s.bringHome = if (s.hold .boarding).isSome then .remove else .leave := by
  rw [State.bringHome, if_pos h, if_neg ho]

theorem bringHome_unloadOnly (h : s.cfs.device = .service) (ho : s.hlu.other = .unloadOnly) :
    s.bringHome = if s.anyOccupied || s.roc.limits.any LimitPoint.isDoor || (s.hold .boarding).isSome then .leave
      else .insert := by
  rw [State.bringHome, if_pos h, if_pos ho]

theorem anyOccupied_iff : s.anyOccupied = true ↔ ∃ k, 1 ≤ k ∧ k ≤ s.cfs.geometry.n ∧ s.occupied k = true := by
  simp only [State.anyOccupied, Geometry.cabins, List.any_map, List.any_eq_true, List.mem_range, Function.comp_apply]
  constructor
  · rintro ⟨k, hk, ho⟩
    exact ⟨k + 1, by omega, by omega, ho⟩
  · rintro ⟨k, h1, hn, ho⟩
    exact ⟨k - 1, by omega, by rwa [Nat.sub_add_cancel h1]⟩

theorem anyDoor_iff : s.roc.limits.any LimitPoint.isDoor = true ↔ ∃ k, s.hasDoor k = true := by
  simp only [List.any_eq_true, State.hasDoor_eq, decide_eq_true_eq, List.mem_map]
  constructor
  · rintro ⟨e, he, hd⟩
    cases ho : e.origin with
    | door k => exact ⟨k, e, he, ho⟩
    | move | slow => simp [LimitPoint.isDoor, ho] at hd
  · rintro ⟨k, e, he, ho⟩
    exact ⟨e, he, by simp [LimitPoint.isDoor, ho]⟩

theorem bringHomeHandOver_insert (h : s.bringHome = .insert) :
    bringHomeHandOver s = handToWheel s.hlu.effective
      (notify (.bringHomeComplete s.ptr.angle s.cfs.clock) (holdFormInsert .boarding .stop s)) := by
  simp only [bringHomeHandOver, h]

theorem bringHomeHandOver_remove (h : s.bringHome = .remove) :
    bringHomeHandOver s = handToWheel s.hlu.effective (holdFormRemove .boarding s) := by
  simp only [bringHomeHandOver, h]

theorem bringHomeHandOver_leave (h : s.bringHome = .leave) : bringHomeHandOver s = s := by
  simp only [bringHomeHandOver, h]

/-- The bring-home judgement changes its own entry, and hands that change over. -/
theorem bringHomeHandOver_induction {P : State → Prop} (hs : P s) (hform : ∀ u, P s → u = { s with hlu := u.hlu, lkp := u.lkp } → P u)
    (hhand : ∀ previous u, P u → P (handToWheel previous u)) : P (bringHomeHandOver s) := by
  cases h : s.bringHome with
  | insert =>
    rw [bringHomeHandOver_insert h]
    refine hhand _ _ (hform _ hs ?_)
    rw [holdFormInsert, holdForm_rest]
    rfl
  | remove =>
    rw [bringHomeHandOver_remove h]
    exact hhand _ _ (hform _ hs (holdForm_rest ..))
  | leave =>
    rw [bringHomeHandOver_leave h]
    exact hs

theorem bringHomeHandOver_tripped (h : s.roc.rotation = .tripped) : (bringHomeHandOver s).roc.rotation = .tripped :=
  bringHomeHandOver_induction (P := fun u => u.roc.rotation = .tripped) h (fun u k e => by rw [e]; exact k)
    fun _ _ => handToWheel_tripped

theorem bringHomeHandOver_idle (h : s.mvu.trial.status ≠ .measuring) :
    (bringHomeHandOver s).mvu.trial = s.mvu.trial :=
  bringHomeHandOver_induction (P := fun u => u.mvu.trial = s.mvu.trial) rfl (fun u k e => by rw [e])
    fun _ u k => (handToWheel_idle (by rw [k]; exact h)).trans k

/-- The other level is not changed by the bring-home entry, and stays that of the entries (R138). -/
theorem bringHomeHandOver_other (h : s.hlu.other = highestLevel (s.hlu.entries.filter fun e => e.id != .boarding)) :
    (bringHomeHandOver s).hlu.other = s.hlu.other ∧
      (bringHomeHandOver s).hlu.other =
        highestLevel ((bringHomeHandOver s).hlu.entries.filter fun e => e.id != .boarding) := by
  cases hb : s.bringHome with
  | insert =>
    obtain ⟨he, -, ho⟩ := holdForm_hlu .boarding (if (s.hold .boarding).isSome then .replacement else .insertion)
      (some .stop) (placeEntry { id := .boarding, level := .stop, time := s.cfs.clock } s.hlu.entries) s
    rw [bringHomeHandOver_insert hb, (handToWheel_handOver _ _).hlu]
    exact ⟨ho.trans ((congrArg highestLevel (filter_placeEntry_boarding rfl _)).trans h.symm), ho.trans (by rw [← he]; rfl)⟩
  | remove =>
    obtain ⟨he, -, ho⟩ := holdForm_hlu .boarding .removal none (s.hlu.entries.filter fun e => e.id != .boarding) s
    rw [bringHomeHandOver_remove hb, (handToWheel_handOver _ _).hlu]
    exact ⟨ho.trans ((congrArg highestLevel (filter_boarding_filter _)).trans h.symm), ho.trans (by rw [← he]; rfl)⟩
  | leave =>
    rw [bringHomeHandOver_leave hb]
    exact ⟨rfl, h⟩

theorem handToWheel_hold (previous : Level) (s : State) (id : HoldId) : (handToWheel previous s).hold id = s.hold id :=
  hold_congr (handToWheel_handOver previous s).hlu id

/-- The bring-home entry after the judgement in t, against the state s before the change that was handed over (R98). -/
theorem bringHomeHandOver_bringsHome (hc : t.cfs = s.cfs) (ho : ∀ k, t.occupied k = s.occupied k)
    (hd : ∀ k, t.hasDoor k = s.hasDoor k) (hb : t.hold .boarding = s.hold .boarding)
    (hf : t.hlu.other = highestLevel (t.hlu.entries.filter fun e => e.id != .boarding)) :
    bringsHome s (bringHomeHandOver t) := by
  have hother : (bringHomeHandOver t).hlu.other = t.hlu.other := (bringHomeHandOver_other hf).1
  have hbusy : (t.anyOccupied || t.roc.limits.any LimitPoint.isDoor) = true ↔
      (∃ k, 1 ≤ k ∧ k ≤ s.cfs.geometry.n ∧ s.occupied k = true) ∨ ∃ k, s.hasDoor k = true := by
    rw [Bool.or_eq_true, anyOccupied_iff, anyDoor_iff, hc]
    simp only [ho, hd]
  refine ⟨fun hconfig => ?_, fun hservice => ⟨fun hne => ?_, fun heq => ?_⟩⟩
  · rw [bringHomeHandOver_leave (bringHome_config (hc ▸ hconfig)), hb]
  · rw [hother] at hne
    have hjudge := bringHome_other (s := t) (hc ▸ hservice) hne
    cases hsome : (t.hold .boarding).isSome with
    | true =>
      rw [hsome] at hjudge
      rw [bringHomeHandOver_remove hjudge, handToWheel_hold]
      exact (holdFormRemove_content .boarding t).2.2.1
    | false =>
      rw [hsome] at hjudge
      rw [bringHomeHandOver_leave hjudge]
      simpa using hsome
  · rw [hother] at heq
    have hjudge := bringHome_unloadOnly (s := t) (hc ▸ hservice) heq
    intro busy
    refine ⟨fun hkeep => ?_, fun hnone hfree => ?_⟩
    · rw [if_pos] at hjudge
      · rw [bringHomeHandOver_leave hjudge, hb]
      · rw [Bool.or_eq_true, hbusy, hb]
        exact hkeep.symm
    · rw [if_neg] at hjudge
      · rw [bringHomeHandOver_insert hjudge, handToWheel_hold]
        refine ((holdFormInsert_content .boarding .stop t).2.2.1).trans ?_
        rw [hc]
      · rw [Bool.or_eq_true, hbusy, hb, hnone]
        rintro (h | h)
        · exact hfree h
        · cases h

end BringHome

end Sys2Proof.Machine

/-! Proofs: HOLD_SET and HOLD_RELEASE (R136 to R141). -/

namespace Sys2Proof.Machine

section Station

variable {s u x : State}

theorem occupied_congr (hb : x.bsq.cabins = s.bsq.cabins) (hn : x.cru.nodes = s.cru.nodes) (hc : x.cfs = s.cfs) (k : Nat) :
    x.occupied k = s.occupied k := by
  rw [State.occupied, State.cabin, State.node, hb, hn, hc]
  rfl

/-- The whole of a change formed in x: the other level is that of the entries, and the bring-home entry is judged against the
state s before the change, whose other blocks x still has. -/
theorem change_bringsHome (previous : Level) (hx : x = { u with hlu := x.hlu, lkp := x.lkp }) (huc : u.cfs = s.cfs)
    (hub : u.bsq = s.bsq) (hun : u.cru = s.cru) (hur : u.roc = s.roc) (hb : x.hold .boarding = s.hold .boarding)
    (ho : x.hlu.other = highestLevel (x.hlu.entries.filter fun e => e.id != .boarding)) :
    let t := bringHomeHandOver (handToWheel previous x)
    t.hlu.other = highestLevel (t.hlu.entries.filter fun e => e.id != .boarding) ∧ bringsHome s t := by
  have hc : x.cfs = s.cfs := (congrArg State.cfs hx).trans huc
  have hbsq : x.bsq = s.bsq := (congrArg State.bsq hx).trans hub
  have hcru : x.cru = s.cru := (congrArg State.cru hx).trans hun
  have hroc : x.roc = s.roc := (congrArg State.roc hx).trans hur
  obtain ⟨m, r, b, l, hand, -⟩ := handToWheel_fields previous x
  have hother : (handToWheel previous x).hlu.other =
      highestLevel ((handToWheel previous x).hlu.entries.filter fun e => e.id != .boarding) := by
    rw [(handToWheel_handOver previous x).hlu]
    exact ho
  refine ⟨(bringHomeHandOver_other hother).2, bringHomeHandOver_bringsHome ?_ (fun k => ?_) (fun k => ?_) ?_ hother⟩
  · rw [hand, ← hc]
  · rw [hand]
    exact occupied_congr (congrArg Bsq.cabins hbsq) (congrArg Cru.nodes hcru) hc k
  · refine congrArg Option.isSome ?_
    rw [handToWheel_limit LimitOrigin.noConfusion, State.limit, hroc]
    rfl
  · rw [handToWheel_hold, hb]

theorem holdInsert_eq {id : HoldId} {v : Level} (hv : v ≠ .none) :
    holdInsert id v s = bringHomeHandOver (handToWheel s.hlu.effective (holdFormInsert id v s)) := if_neg hv

theorem holdRemove_present {id : HoldId} (h : (s.hold id).isSome = true) :
    holdRemove id s = bringHomeHandOver (handToWheel s.hlu.effective (holdFormRemove id s)) := if_pos h

theorem boarding_ne_stationHold (p : Port) (r : Nat) : stationHold p r ≠ .boarding := by cases p <;> exact HoldId.noConfusion

/-- What an insertion at STOP or PARK does to a measuring trial (R58). -/
theorem holdInsert_aborts {id : HoldId} {v : Level} (hv : v = .stop ∨ v = .park) (hs : s.hlu.effective ≠ .stop)
    (hp : s.hlu.effective ≠ .park) (hm : s.mvu.trial.status = .measuring) :
    (holdInsert id v s).mvu.trial = s.abortedTrial .level := by
  have hcode : 4 ≤ (holdFormInsert id v s).hlu.effective.code :=
    Nat.le_trans (by rcases hv with rfl | rfl <;> decide) (holdFormInsert_level id v s)
  have hlevel : (holdFormInsert id v s).hlu.effective = .stop ∨ (holdFormInsert id v s).hlu.effective = .park := by
    revert hcode
    cases (holdFormInsert id v s).hlu.effective <;> simp [Level.code]
  have hrest : holdFormInsert id v s = { s with
      hlu := (holdFormInsert id v s).hlu, lkp := (holdFormInsert id v s).lkp } := holdForm_rest ..
  have habort : (handToWheel s.hlu.effective (holdFormInsert id v s)).mvu.trial = s.abortedTrial .level := by
    rw [handToWheel_aborts (by rw [hrest]; exact hm) hlevel hs hp, hrest]
    rfl
  rw [holdInsert_eq (by rintro rfl; rcases hv with h | h <;> cases h), bringHomeHandOver_idle, habort]
  rw [habort]
  exact TrialStatus.noConfusion

/-- An insertion at PARK trips the wheel (R25). -/
theorem holdInsert_trips {id : HoldId} (hp : s.hlu.effective ≠ .park) : (holdInsert id .park s).roc.rotation = .tripped := by
  have hlevel : (holdFormInsert id .park s).hlu.effective = .park := by
    have := holdFormInsert_level id .park s
    revert this
    cases (holdFormInsert id .park s).hlu.effective <;> simp [Level.code]
  rw [holdInsert_eq Level.noConfusion]
  exact bringHomeHandOver_tripped (handToWheel_trips hlevel hp)

/-! ### The answers -/

variable {p : Port} {reason level : Nat}

theorem answerHoldSet_badReason (h : ¬(1 ≤ reason ∧ reason ≤ 15)) : answerHoldSet p reason level s = .refused .badField 1 :=
  if_pos h

theorem answerHoldSet_badLevel (hr : 1 ≤ reason ∧ reason ≤ 15) (h : level = 0 ∨ 5 < level) :
    answerHoldSet p reason level s = .refused .badField 2 := by
  have hcode : Level.ofCode level = Option.none ∨ Level.ofCode level = some .none := by
    rcases h with rfl | h
    · exact .inr rfl
    · left
      unfold Level.ofCode
      split <;> first | rfl | omega
  rw [answerHoldSet, if_neg (not_not_intro hr)]
  rcases hcode with h | h <;> rw [h] <;> rfl

theorem answerHoldSet_level {v : Level} (hr : 1 ≤ reason ∧ reason ≤ 15) (hl : Level.ofCode level = some v) (hv : v ≠ .none) :
    answerHoldSet p reason level s =
      if (s.hold (stationHold p reason)).isNone && decide (4 ≤ s.stationCount p) then .refused .full 0
      else .accepted (be1 reason ++ be1 v.code ++ be1 ((holdInsert (stationHold p reason) v s).holdPosition (stationHold p reason))
        ++ be1 (holdInsert (stationHold p reason) v s).hlu.effective.code) (holdInsert (stationHold p reason) v s) := by
  rw [answerHoldSet, if_neg (not_not_intro hr), hl]
  cases v <;> first | exact absurd rfl hv | rfl

theorem Level.code_of_ofCode {n : Nat} {v : Level} (h : Level.ofCode n = some v) : v.code = n := by
  unfold Level.ofCode at h
  split at h <;> cases h <;> rfl

theorem taken_stationCount (f : Frame) (q : Port) : (taken p f s).stationCount q = s.stationCount q := by
  rw [State.stationCount, taken_hlu, State.stationCount]

theorem taken_abortedTrial (f : Frame) (c : TrialAbort) : (taken p f s).abortedTrial c = s.abortedTrial c := by
  simp only [State.abortedTrial, taken_mvu, taken_roc, taken_cfs]

end Station

/-- Settles O46: forming the set, the hand-over and the judgement of a HOLD_SET. -/
theorem holdSetPlacesStationEntry : Obligations.HoldSetPlacesStationEntry := by
  refine ⟨fun id v s hv => ?set, fun p tag reason level s hfree => ?request⟩
  case set =>
    intro entry
    obtain ⟨he, heff, hother⟩ := holdForm_hlu id (if (s.hold id).isSome then .replacement else .insertion) (some v)
      (placeEntry entry s.hlu.entries) s
    refine ⟨holdFormInsert id v s, holdInsert_eq hv, holdForm_rest .., fun hn => ?_, fun before old later hl ho hb => ?_,
      heff.trans (congrArg highestLevel he.symm), hother.trans (by rw [← he]; rfl), fun p => ?_⟩
    · exact he.trans (placeEntry_new (hold_eq_none_iff.mp hn))
    · exact he.trans (by rw [hl]; exact placeEntry_old ho hb)
    · exact holdForm_port ..
  case request =>
    intro f u id
    have hmay : portMay p (requestKind (.holdSet reason level)) = true := portMay_desk p (by simp [requestKind])
    refine ⟨fun hr => request_refuses hfree hmay (answerHoldSet_badReason (by omega)), fun h1 h15 =>
      ⟨fun hl => request_refuses hfree hmay (answerHoldSet_badLevel ⟨h1, h15⟩ hl), fun v hlevel hv => ?_⟩⟩
    have hanswer := answerHoldSet_level (p := p) (s := u) ⟨h1, h15⟩ hlevel hv
    rw [taken_hold, taken_stationCount] at hanswer
    refine ⟨fun hn hfull => request_refuses hfree hmay (hanswer.trans (if_pos (by simpa [hfull] using hn))), fun hroom => ?_⟩
    intro t
    have hcond : ¬((s.hold id).isNone && decide (4 ≤ s.stationCount p)) = true := by
      rw [Bool.and_eq_true, decide_eq_true_eq, Option.isNone_iff_eq_none]
      rintro ⟨hn, h4⟩
      rcases hroom with h | h
      · rw [hn] at h
        cases h
      · omega
    have hev : Event u t := stationInsert_event ⟨h1, h15⟩ (by rw [taken_hold, taken_stationCount]; exact hcond)
    obtain ⟨huntouched, hothers, hown, hformed⟩ := holdInsert_content (id := id) hv (boarding_ne_stationHold p _) u
    obtain ⟨he, -, ho⟩ := holdForm_hlu id (if (u.hold id).isSome then .replacement else .insertion) (some v)
      (placeEntry { id := id, level := v, time := u.cfs.clock } u.hlu.entries) u
    have hboard : (holdFormInsert id v u).hold .boarding = s.hold .boarding :=
      ((holdFormInsert_content id v u).2.1 .boarding (boarding_ne_stationHold p _).symm).trans (taken_hold ..)
    obtain ⟨hother, hbrings⟩ := change_bringsHome (s := s) (x := holdFormInsert id v u) u.hlu.effective
      (holdForm_rest ..) (taken_cfs p f s) (taken_bsq p f s) (taken_cru p f s) (taken_roc p f s) hboard (ho.trans (by rw [← he]; rfl))
    rw [← holdInsert_eq hv] at hother hbrings
    refine ⟨request_accepts hfree hmay (hanswer.trans ((if_neg hcond).trans ?_)), ?_, hformed, hother, ?_, ?_, hbrings,
      fun i hi hb => (hothers i hi hb).trans (taken_hold ..), huntouched.fbu.trans (taken_fbu ..),
      huntouched.cru.trans (taken_cru ..), huntouched.pim.trans (taken_pim ..), hev.ptr.trans (taken_ptr ..),
      hev.wmn.trans (taken_wmn ..), hev.cfs.trans (taken_cfs ..)⟩
    · rw [Level.code_of_ofCode hlevel]
    · exact hown.trans (by rw [taken_cfs])
    · rintro rfl hp
      exact holdInsert_trips (by rw [taken_hlu]; exact hp)
    · intro hv' hs hp hm
      exact (holdInsert_aborts hv' (by rw [taken_hlu]; exact hs) (by rw [taken_hlu]; exact hp)
        (by rw [taken_mvu]; exact hm)).trans (taken_abortedTrial f .level)

section Release

variable {p : Port} {reason : Nat} {s : State}

theorem answerHoldRelease_badReason (h : ¬(1 ≤ reason ∧ reason ≤ 15)) : answerHoldRelease p reason s = .refused .badField 1 :=
  if_pos h

theorem answerHoldRelease_reason (hr : 1 ≤ reason ∧ reason ≤ 15) :
    answerHoldRelease p reason s = if (s.hold (stationHold p reason)).isSome then
      .accepted (be1 reason ++ be1 (holdRemove (stationHold p reason) s).hlu.effective.code)
        (holdRemove (stationHold p reason) s) else .refused .unknownId 0 :=
  if_neg (not_not_intro hr)

end Release

/-- Settles O47: forming the set, the hand-over and the judgement of a HOLD_RELEASE. -/
theorem holdReleaseRemovesOwnEntry : Obligations.HoldReleaseRemovesOwnEntry := by
  refine ⟨fun id s => ⟨holdRemove_absent, fun h => ?set⟩, fun p tag reason s hfree => ?request⟩
  case set =>
    obtain ⟨he, heff, hother⟩ := holdForm_hlu id .removal none (s.hlu.entries.filter fun e => e.id != id) s
    refine ⟨holdFormRemove id s, holdRemove_present h, holdForm_rest .., he, heff.trans (congrArg highestLevel he.symm),
      hother.trans (by rw [← he]; rfl), fun p => ?_⟩
    exact holdForm_port ..
  case request =>
    intro f u id t
    have hmay : portMay p (requestKind (.holdRelease reason)) = true := portMay_desk p (by simp [requestKind])
    refine ⟨fun hr => request_refuses hfree hmay (answerHoldRelease_badReason (by omega)), fun h1 h15 => ?_⟩
    have hanswer := answerHoldRelease_reason (p := p) (s := u) ⟨h1, h15⟩
    rw [taken_hold] at hanswer
    refine ⟨fun hn => request_refuses hfree hmay (hanswer.trans (if_neg (by rw [hn]; nofun))), fun h => ?_⟩
    have hu : (u.hold id).isSome = true := by rw [taken_hold]; exact h
    have hev : Event u t := holdRemove_event ..
    obtain ⟨huntouched, hothers, hown, hformed⟩ := holdRemove_content (id := id) (boarding_ne_stationHold p _) u
    obtain ⟨he, -, ho⟩ := holdForm_hlu id .removal none (u.hlu.entries.filter fun e => e.id != id) u
    have hboard : (holdFormRemove id u).hold .boarding = s.hold .boarding :=
      ((holdFormRemove_content id u).2.1 .boarding (boarding_ne_stationHold p _).symm).trans (taken_hold ..)
    obtain ⟨hother, hbrings⟩ := change_bringsHome (s := s) (x := holdFormRemove id u) u.hlu.effective
      (holdForm_rest ..) (taken_cfs p f s) (taken_bsq p f s) (taken_cru p f s) (taken_roc p f s) hboard (ho.trans (by rw [← he]; rfl))
    rw [← holdRemove_present hu] at hother hbrings
    exact ⟨request_accepts hfree hmay (hanswer.trans (if_pos h)), hown, hformed hu, hother, hbrings,
      fun i hi hb => (hothers i hi hb).trans (taken_hold ..), huntouched.fbu.trans (taken_fbu ..),
      huntouched.cru.trans (taken_cru ..), huntouched.pim.trans (taken_pim ..), hev.ptr.trans (taken_ptr ..),
      hev.wmn.trans (taken_wmn ..), hev.cfs.trans (taken_cfs ..)⟩

end Sys2Proof.Machine

/-! Proofs: the deceleration trial (R39, R55 to R58). -/

namespace Sys2Proof.Machine

/-! ### Reports and the trial -/

section Reports

variable {s t : State}

theorem holdInsert_idle {id : HoldId} {v : Level} (hv : v ≠ .none) (h : s.mvu.trial.status ≠ .measuring) :
    (holdInsert id v s).mvu.trial = s.mvu.trial := by
  have hform : (holdFormInsert id v s).mvu = s.mvu := by rw [holdFormInsert, holdForm_rest]
  have hand : (handToWheel s.hlu.effective (holdFormInsert id v s)).mvu.trial = s.mvu.trial :=
    (handToWheel_idle (by rw [hform]; exact h)).trans (congrArg Mvu.trial hform)
  rw [holdInsert_eq hv, bringHomeHandOver_idle (by rw [hand]; exact h), hand]

theorem reportNoticed_mvu (c : FaultCode) (k : Option Nat) (s : State) : (s.reportNoticed c k).mvu = s.mvu := by
  obtain ⟨_, h⟩ := reportNoticed_eq k c s
  rw [h, setBank_mvu]

theorem faultHandOver_mvu (c : FaultCode) (k : Option Nat) (s : State) : (faultHandOver c k s).mvu = s.mvu := by
  unfold faultHandOver
  split
  · unfold cabinFault serviceChange slowJudge
    dsimp only
    repeat' split
    all_goals rfl
  · rfl

theorem faultHandOver_fbu (c : FaultCode) (k : Option Nat) (s : State) : (faultHandOver c k s).fbu = s.fbu := by
  unfold faultHandOver
  split
  · exact (serviceChange_hlu ..).2.1
  · rfl

/-- A report leaves a trial that does not measure. -/
theorem report_idle (c : FaultCode) (k : Option Nat) (h : s.mvu.trial.status ≠ .measuring) :
    (report c k s).mvu.trial = s.mvu.trial := by
  cases hm : (s.bank c.bank).masks c with
  | true => rw [report_masked k hm]
  | false =>
    have hmvu : (faultHandOver c k (s.reportNoticed c k)).mvu = s.mvu := (faultHandOver_mvu ..).trans (reportNoticed_mvu ..)
    rw [report_unmasked k hm]
    unfold faultEntry
    split
    · rw [hmvu]
    · next a _ =>
      split
      · rw [hmvu]
      · rw [holdInsert_idle a.level_ne_none (by rw [hmvu]; exact h), hmvu]

/-- What a report leaves in the banks: the reported bank in place of the old one. -/
theorem report_fbu (c : FaultCode) (k : Option Nat) (s : State) : (report c k s).fbu =
    if (s.bank c.bank).masks c then s.fbu else (setBank c.bank (s.reportedBank c k) s).fbu := by
  cases hm : (s.bank c.bank).masks c with
  | true => rw [report_masked k hm, if_pos rfl]
  | false =>
    obtain ⟨_, hn⟩ := reportNoticed_eq k c s
    have hfbu : (faultHandOver c k (s.reportNoticed c k)).fbu = (setBank c.bank (s.reportedBank c k) s).fbu := by
      rw [faultHandOver_fbu, hn]
    rw [report_unmasked k hm, if_neg Bool.false_ne_true]
    unfold faultEntry
    split
    · exact hfbu
    · next a _ =>
      split
      · exact hfbu
      · rw [(holdInsert_content a.level_ne_none HoldId.noConfusion _).1.fbu, hfbu]

theorem report_fbu_congr (c : FaultCode) (k : Option Nat) (hf : t.fbu = s.fbu) (hp : t.ptr = s.ptr) (hc : t.cfs = s.cfs) :
    (report c k t).fbu = (report c k s).fbu := by
  have hbank : t.bank c.bank = s.bank c.bank := bank_congr hf _
  have hreported : t.reportedBank c k = s.reportedBank c k := by
    rw [State.reportedBank, State.reportRecord, hbank, hp, hc]
    rfl
  rw [report_fbu, report_fbu, hbank, hreported, hf]
  unfold setBank
  rw [hf]

end Reports

/-! ### The trial itself -/

section Trial

variable {s : State}

theorem trialAllowed_iff : s.trialAllowed = true ↔ s.roc.rotation = .running ∧ s.roc.trialStep = false ∧ 100 ≤ s.ptr.speed ∧
    (∀ e ∈ s.roc.limits, ∀ k, e.origin ≠ .door k) ∧
    (∀ m, s.mvu.slotA = some m → m.status ≠ .active ∧ m.status ≠ .arrived) ∧
    (s.hlu.effective = .none ∨ s.hlu.effective = .slow) := by
  have hdoors : s.roc.limits.any LimitPoint.isDoor = false ↔ ∀ e ∈ s.roc.limits, ∀ k, e.origin ≠ .door k := by
    rw [List.any_eq_false]
    refine forall₂_congr fun e _ => ?_
    cases ho : e.origin <;> simp [LimitPoint.isDoor, ho]
  have hslot : s.occupiedA = false ↔ ∀ m, s.mvu.slotA = some m → m.status ≠ .active ∧ m.status ≠ .arrived := by
    unfold State.occupiedA
    cases h : s.mvu.slotA with
    | none => simp
    | some m => simp [Move.occupiesA]
  simp only [State.trialAllowed, Bool.and_eq_true, Bool.or_eq_true, Bool.not_eq_true', beq_iff_eq, decide_eq_true_eq, hdoors,
    hslot, and_assoc]

theorem answerTrialStart_allowed (h : s.trialAllowed = true) :
    answerDecelTrialStart s = .accepted (be2s s.ptr.speed ++ be4 s.cfs.clock) (startTrial s) := if_pos h

theorem answerTrialStart_refused (h : s.trialAllowed = false) : answerDecelTrialStart s = .refused .wrongState 0 :=
  if_neg (by rw [h]; exact Bool.false_ne_true)

theorem taken_trialAllowed (p : Port) (f : Frame) (s : State) : (taken p f s).trialAllowed = s.trialAllowed := by
  simp only [State.trialAllowed, State.occupiedA, taken_roc, taken_ptr, taken_mvu, taken_hlu]

theorem trialUpdate_idle {delta : Int} (h : s.mvu.trial.status ≠ .measuring) : trialUpdate delta s = s := if_neg h

theorem trialUpdate_moving {delta c : Int} (h : s.mvu.trial.status = .measuring) (hc : s.mvu.trial.counts = some c)
    (hs : s.ptr.standstill = false) :
    trialUpdate delta s = { s with mvu := { s.mvu with trial := { s.mvu.trial with counts := some (c + delta) } } } := by
  simp only [trialUpdate, h, ↓reduceIte, hc, Option.getD_some, hs, Bool.false_eq_true]

theorem trialUpdate_still {delta c : Int} (h : s.mvu.trial.status = .measuring) (hc : s.mvu.trial.counts = some c)
    (hs : s.ptr.standstill = true) : trialUpdate delta s =
      completeTrial { s with mvu := { s.mvu with trial := { s.mvu.trial with counts := some (c + delta) } } } := by
  simp only [trialUpdate, h, ↓reduceIte, hc, Option.getD_some, hs]

/-- The record of a trial with its measurements done: speed at the start, counts, outcome and the deceleration after it
(R57). -/
def State.doneTrial (s : State) (v0 counts : Int) (outcome : TrialOutcome) (aEff : Nat) : Trial :=
  { s.mvu.trial with
    status := .done, distance := some (trialDistance counts s.cfs.geometry.u)
    aMeas := some (trialMeasured v0 (trialDistance counts s.cfs.geometry.u))
    aCand := some (trialCandidate (trialMeasured v0 (trialDistance counts s.cfs.geometry.u)))
    outcome := some outcome, aEffAfter := some aEff, endTime := some s.cfs.clock }

variable {v0 counts : Int}

theorem completeTrial_accepted (hv : s.mvu.trial.v0 = some v0) (hc : s.mvu.trial.counts = some counts)
    (h : s.cfs.speeds.aMin ≤ trialCandidate (trialMeasured v0 (trialDistance counts s.cfs.geometry.u))) :
    let a := offerDecel s.cfs.speeds (min s.cfs.speeds.aCfg
      (trialCandidate (trialMeasured v0 (trialDistance counts s.cfs.geometry.u)))) s.roc.aEff
    let done := s.doneTrial v0 counts .accepted a
    completeTrial s =
      notify (.trialDone done) { s with mvu := { s.mvu with trial := done }, roc := { s.roc with aEff := a } } := by
  simp only [completeTrial, hv, hc, Option.getD_some, decide_eq_true h, ↓reduceIte, State.doneTrial]

theorem completeTrial_insufficient (hv : s.mvu.trial.v0 = some v0) (hc : s.mvu.trial.counts = some counts)
    (h : trialCandidate (trialMeasured v0 (trialDistance counts s.cfs.geometry.u)) < s.cfs.speeds.aMin) :
    let done := s.doneTrial v0 counts .insufficient s.roc.aEff
    completeTrial s =
      notify (.trialDone done) (report .decelInsufficient none { s with mvu := { s.mvu with trial := done } }) := by
  simp only [completeTrial, hv, hc, Option.getD_some, decide_eq_false (Nat.not_le.mpr h), Bool.false_eq_true, ↓reduceIte,
    State.doneTrial]

end Trial

theorem exec_controlUpdate {s : State} (h : s.time.resetHeld = false) : exec .controlUpdate s = .next (controlUpdate s) :=
  congrArg _ (unlessReset_running h)

/-- Settles O45: the start of a trial, its place in the update, and its completion by the outcome. -/
theorem trialStartStopsDrive : Obligations.TrialStartStopsDrive := by
  refine ⟨fun tag s hfree => ?start, fun s hreset => exec_controlUpdate hreset, fun delta s =>
    ⟨fun h => ⟨trialUpdate_idle h, fun c => abortTrial_idle h⟩, fun v0 counts hm hv hc => ?measure⟩⟩
  case start =>
    intro f u allowed
    have hiff : u.trialAllowed = true ↔ allowed := by
      rw [taken_trialAllowed]
      exact trialAllowed_iff
    refine ⟨fun h => request_accepts hfree rfl ?_, fun h => request_refuses hfree rfl
      (answerTrialStart_refused (Bool.eq_false_iff.mpr fun k => h (hiff.mp k)))⟩
    refine (answerTrialStart_allowed (hiff.mpr h)).trans ?_
    simp only [startTrial, u, taken_ptr, taken_cfs]
  case measure =>
    intro total d measured candidate offered t
    refine ⟨trialUpdate_moving hm hc, fun hs ha hcand => ?accepted, fun hs hcand => ?insufficient, fun cause =>
      abortTrial_measuring hm⟩
    case accepted =>
      let u : State := { s with mvu := { s.mvu with trial := { s.mvu.trial with counts := some total } } }
      have ht : t = completeTrial u := trialUpdate_still hm hc hs
      have hoffer : offerDecel s.cfs.speeds offered s.roc.aEff = offered :=
        if_pos ⟨Nat.le_min.mpr ⟨ha, hcand⟩, Nat.min_le_left ..⟩
      rw [ht, completeTrial_accepted (s := u) hv rfl hcand]
      exact ⟨hoffer, rfl, congrArg (u.doneTrial v0 total .accepted) hoffer⟩
    case insufficient =>
      let u : State := { s with mvu := { s.mvu with trial := { s.mvu.trial with counts := some total } } }
      have ht : t = completeTrial u := trialUpdate_still hm hc hs
      let done := u.doneTrial v0 total .insufficient s.roc.aEff
      let x : State := { u with mvu := { u.mvu with trial := done } }
      rw [ht, completeTrial_insufficient (s := u) hv rfl hcand]
      refine ⟨congrArg (fun k => k.2.1) (report_event .decelInsufficient none x).kept, ?_, ?_⟩
      · exact report_fbu_congr (t := x) (s := s) .decelInsufficient none rfl rfl rfl
      · exact report_idle (s := x) .decelInsufficient none TrialStatus.noConfusion

end Sys2Proof.Machine

/-! Proofs: the positioning moves: submission, cancel, resume, promotion, and the judgement at standstill (R44 to R50). -/

namespace Sys2Proof.Machine

/-! ### The limit point of an identity (R31) -/

section Limits

variable {s : State} {o : LimitOrigin}

theorem find_placeLimit (e : LimitPoint) (l : List LimitPoint) :
    (placeLimit e l).find? (fun x => x.origin == e.origin) = some e := by
  induction l with
  | nil => simp [placeLimit]
  | cons x xs ih =>
    rw [placeLimit]
    split
    · simp
    · next h => rw [List.find?_cons_of_neg (by simpa using h), ih]

theorem limitInsert_limit_self (line v : Nat) (m : Bool) (r : Int) (s : State) :
    (limitInsert o line v m r s).limit o = some
      { origin := o, line := line, limitSpeed := v, margin := m, remaining := r, overrunReported := false } :=
  find_placeLimit { origin := o, line := line, limitSpeed := v, margin := m, remaining := r, overrunReported := false } _

theorem limitRemove_limit_self (o : LimitOrigin) (s : State) : (limitRemove o s).limit o = none := by
  refine List.find?_eq_none.mpr fun e he => ?_
  obtain ⟨-, hne⟩ := List.mem_filter.mp he
  simpa using hne

end Limits

/-! ### A slot's record -/

section Slots

variable {s : State} {sl : Slot} {m b : Move}

theorem moveChanged_slotA (m : Option Move) (s : State) :
    (moveChanged .a m s).mvu.slotA = m ∧ (moveChanged .a m s).mvu.slotB = s.mvu.slotB := by
  rw [moveChanged_mvu]
  exact ⟨rfl, rfl⟩

theorem moveChanged_slotB (m : Option Move) (s : State) :
    (moveChanged .b m s).mvu.slotB = m ∧ (moveChanged .b m s).mvu.slotA = s.mvu.slotA := by
  rw [moveChanged_mvu]
  exact ⟨rfl, rfl⟩

theorem moveChanged_roc (sl : Slot) (m : Option Move) (s : State) : (moveChanged sl m s).roc = s.roc := by
  cases m <;> rfl

theorem moveChanged_ptr (sl : Slot) (m : Option Move) (s : State) : (moveChanged sl m s).ptr = s.ptr := by
  cases m <;> rfl

theorem moveChanged_cfs (sl : Slot) (m : Option Move) (s : State) : (moveChanged sl m s).cfs = s.cfs := by
  cases m <;> rfl

theorem promote_pending (h : s.mvu.slotB = some b) (hb : b.status = .pending) :
    promote s = moveChanged .b none (activate b s) := by
  simp only [promote, h, hb, ↓reduceIte]

theorem promote_none (h : ∀ b, s.mvu.slotB = some b → b.status ≠ .pending) : promote s = s := by
  unfold promote
  split
  · rfl
  · next b hb => exact if_neg (h b hb)

/-- The record that a slot gives for a number (R49, R50). -/
theorem numbered_eq_some {n : Nat} (h : s.slot sl = some m) (hn : m.number = n) : s.numbered sl n = some m := by
  simp only [State.numbered, h, hn, ↓reduceIte]

theorem numbered_eq_none {n : Nat} (h : ∀ m, s.slot sl = some m → m.number ≠ n) : s.numbered sl n = none := by
  unfold State.numbered
  split
  · rfl
  · next m hm => exact if_neg (h m hm)

variable {n : Nat}

theorem cancelMove_occupied (h : s.numbered .a n = some m) (ho : m.occupiesA = true) :
    cancelMove n s = .done (finishA { m with status := .cancelled } s) := by
  simp only [cancelMove, h, ho, ↓reduceIte]

theorem cancelMove_final (h : s.numbered .a n = some m) (ho : m.occupiesA = false) :
    cancelMove n s = .refused .wrongState := by
  simp only [cancelMove, h, ho, Bool.false_eq_true, ↓reduceIte]

theorem cancelMove_pending (h : s.numbered .a n = none) (hb : s.numbered .b n = some m) (hm : m.status = .pending) :
    cancelMove n s = .done (moveChanged .b (some { m with status := .cancelled }) s) := by
  simp only [cancelMove, h, hb, hm, ↓reduceIte]

theorem cancelMove_ended (h : s.numbered .a n = none) (hb : s.numbered .b n = some m) (hm : m.status ≠ .pending) :
    cancelMove n s = .refused .wrongState := by
  simp only [cancelMove, h, hb, hm, ↓reduceIte]

theorem cancelMove_unknown (h : s.numbered .a n = none) (hb : s.numbered .b n = none) :
    cancelMove n s = .refused .unknownId := by
  simp only [cancelMove, h, hb]

theorem resumeMove_arrived (h : s.numbered .a n = some m) (hm : m.status = .arrived) :
    resumeMove n s = .done (finishA { m with status := .done } s) := by
  simp only [resumeMove, h, hm, ↓reduceIte]

theorem resumeMove_other (h : s.numbered .a n = some m) (hm : m.status ≠ .arrived) :
    resumeMove n s = .refused .wrongState := by
  simp only [resumeMove, h, hm, ↓reduceIte]

theorem resumeMove_slotB (h : s.numbered .a n = none) (hb : s.numbered .b n = some m) :
    resumeMove n s = .refused .wrongState := by
  simp only [resumeMove, h, hb, Option.isSome_some, ↓reduceIte]

theorem resumeMove_unknown (h : s.numbered .a n = none) (hb : s.numbered .b n = none) :
    resumeMove n s = .refused .unknownId := by
  simp only [resumeMove, h, hb, Option.isSome_none, Bool.false_eq_true, ↓reduceIte]

end Slots

/-! ### Submission (R45) -/

section Submission

variable {s : State} {kind : MoveKind} {origin : MoveOrigin}

/-- The states in which a move may be submitted (R45 step 3). -/
def State.moveReady (s : State) : Prop :=
  s.cfs.device = .service ∧ s.ptr.referenced = true ∧ s.hlu.effective ≠ .park ∧ s.roc.trialStep = false

/-- The record of a move at its submission (R44, R45). -/
def State.submitted (s : State) (kind : MoveKind) (origin : MoveOrigin) : Move :=
  { number := s.mvu.nextNumber, kind := kind, origin := origin, status := .pending, target := s.moveTarget kind,
    arrivalError := none, cause := none }

/-- The move number counter has given a number (R44). -/
def State.numberTaken (s : State) : State := { s with mvu := { s.mvu with nextNumber := nextMoveNumber s.mvu.nextNumber } }

theorem not_moveReady_iff : ¬s.moveReady ↔
    s.cfs.device = .config ∨ s.ptr.referenced = false ∨ s.hlu.effective = .park ∨ s.roc.trialStep = true := by
  unfold State.moveReady
  cases s.cfs.device <;> cases s.ptr.referenced <;> cases s.roc.trialStep <;> simp

theorem admitsMove_iff {g : Geometry} : g.admitsMove kind = true ↔ 1 ≤ kind.codes.2 ∧ kind.codes.2 ≤ g.n := decide_eq_true_iff

theorem submitMove_badField (h : ¬(1 ≤ kind.codes.2 ∧ kind.codes.2 ≤ s.cfs.geometry.n)) :
    submitMove kind origin s = .refused .badField 2 :=
  if_pos (by rw [Bool.not_eq_true', Bool.eq_false_iff, ne_eq, admitsMove_iff]; exact h)

theorem submitMove_wrongState (hk : 1 ≤ kind.codes.2 ∧ kind.codes.2 ≤ s.cfs.geometry.n) (h : ¬s.moveReady) :
    submitMove kind origin s = .refused .wrongState 0 := by
  rw [submitMove, admitsMove_iff.mpr hk]
  exact if_pos (not_moveReady_iff.mp h)

theorem submitMove_ready (hk : 1 ≤ kind.codes.2 ∧ kind.codes.2 ≤ s.cfs.geometry.n) (h : s.moveReady) :
    submitMove kind origin s =
      if !s.occupiedA then .accepted .a { s.submitted kind origin with status := .active } (activate (s.submitted kind origin) s.numberTaken)
      else if !s.pendingB then .accepted .b (s.submitted kind origin) (moveChanged .b (some (s.submitted kind origin)) s.numberTaken)
      else .refused .full 0 := by
  rw [submitMove, admitsMove_iff.mpr hk]
  exact if_neg fun hn => not_moveReady_iff.mpr hn h

variable {p : Port} {n : Nat}

theorem answerMoveSubmit_stop : answerMoveSubmit p 1 n s = submissionAnswer (submitMove (.stopCabin n) (stationOrigin p) s) := rfl

theorem answerMoveSubmit_desk : answerMoveSubmit .p2 2 n s = .refused .notPermitted 0 := rfl

theorem answerMoveSubmit_advance :
    answerMoveSubmit .p1 2 n s = submissionAnswer (submitMove (.advance n) (stationOrigin .p1) s) := rfl

end Submission

/-- Settles O53: the steps of a submission in their order, for both kinds of move. -/
theorem moveSubmitFillsSlot : Obligations.MoveSubmitFillsSlot := by
  intro p tag n s hfree code kind command hmem f u counted m ready
  have hcommand : exec command s = requestArrives p tag (.moveSubmit code n) s ∧ kind.codes.2 = n.toNat ∧
      (code = 2 → p = .p2 → answer p (.moveSubmit code n) u = .refused .notPermitted 0) ∧
      (code = 1 ∨ p = .p1 →
        answer p (.moveSubmit code n) u = submissionAnswer (submitMove kind (stationOrigin p) u)) := by
    simp only [List.mem_cons, Prod.mk.injEq, List.not_mem_nil, or_false] at hmem
    rcases hmem with ⟨rfl, rfl, rfl⟩ | ⟨rfl, rfl, rfl⟩
    · exact ⟨rfl, rfl, fun h => absurd h (by decide), fun _ => rfl⟩
    · refine ⟨rfl, rfl, fun _ hp => by subst hp; rfl, fun h => ?_⟩
      rcases h with h | rfl
      · exact absurd h (by decide)
      · rfl
  obtain ⟨hexec, hcodes, hdesk, hsubmit⟩ := hcommand
  have hmay : portMay p (requestKind (.moveSubmit code n)) = true := portMay_desk p (by simp [requestKind])
  have hu : u.moveReady ↔ ready := by
    simp only [State.moveReady, u, taken_cfs, taken_ptr, taken_hlu, taken_roc, ready]
  have hn : u.cfs.geometry.n = s.cfs.geometry.n := by rw [taken_cfs]
  have htarget : u.moveTarget kind = s.moveTarget kind := by
    cases kind <;> simp only [State.moveTarget, u, taken_cfs, taken_ptr]
  have hremaining : counted.moveRemaining kind = s.moveRemaining kind := by
    cases kind <;> simp only [State.moveRemaining, State.ahead, counted, u, taken_cfs, taken_ptr]
  have hm : u.submitted kind (stationOrigin p) = m := by
    simp only [State.submitted, htarget, m]
    rw [show u.mvu = s.mvu from taken_mvu p f s]
  have hcounted : u.numberTaken = counted := by
    simp only [State.numberTaken, counted]
    rw [show u.mvu = s.mvu from taken_mvu p f s]
  have hA : u.occupiedA = s.occupiedA := taken_occupiedA ..
  have hB : u.pendingB = s.pendingB := by simp only [State.pendingB, u, taken_mvu]
  rw [hexec]
  refine ⟨fun hc hp => request_refuses hfree hmay (hdesk hc hp), fun hc => ⟨fun hr => request_refuses hfree hmay ?range,
    fun h1 hN => ?inRange⟩⟩
  case range =>
    rw [hsubmit hc, submitMove_badField (by rw [hcodes, hn]; omega)]
    rfl
  case inRange =>
    have hk : 1 ≤ kind.codes.2 ∧ kind.codes.2 ≤ u.cfs.geometry.n := by rw [hcodes, hn]; exact ⟨h1, hN⟩
    refine ⟨fun hnot => request_refuses hfree hmay ?_, fun hr ha hb => request_refuses hfree hmay ?_, fun hr ha hb =>
      request_accepts hfree hmay ?_, fun hr ha => request_accepts hfree hmay ?_⟩
    · rw [hsubmit hc, submitMove_wrongState hk (hnot ∘ hu.mp)]
      rfl
    all_goals rw [hsubmit hc, submitMove_ready hk (hu.mpr hr), hA, ha, hm, hcounted]
    · rw [hB, hb]
      rfl
    · rw [hB, hb]
      rfl
    · have htarget' : counted.moveTarget kind = s.moveTarget kind := by
        rw [← htarget]
        cases kind <;> rfl
      simp only [Bool.not_false, ↓reduceIte, activate, m, htarget', hremaining]
      rfl

/-! ### The judgement at standstill (R48) -/

section Judgement

variable {m : Move} {e : LimitPoint} {s : State} {r : Int}

theorem moveUpdate_empty (h : s.mvu.slotA = none ∨ s.limit .move = none) : moveUpdate s = s := by
  unfold moveUpdate
  rcases h with h | h
  · rw [h]
  · rw [h]
    cases s.mvu.slotA <;> rfl

theorem moveUpdate_eq (hm : s.mvu.slotA = some m) (he : s.limit .move = some e) :
    moveUpdate s = if m.status = .active ∧ s.ptr.standstill = true then judgeMove m e.remaining s else s := by
  simp only [moveUpdate, hm, he]

theorem judgeMove_stop {k : Nat} (hr : -(s.cfs.boarding.tStop : Int) ≤ r ∧ r ≤ s.cfs.boarding.tStop) (hk : m.kind = .stopCabin k) :
    let t := moveChanged .a (some { m with status := .arrived, arrivalError := some (-r) }) s
    judgeMove m r s = if (s.cabin k).phase = .unloading then changeToLoading k t else t := by
  have hcabin (x : Option Move) : (moveChanged .a x s).cabin k = s.cabin k := by cases x <;> rfl
  simp only [judgeMove, hr, hk, and_self, ↓reduceIte, hcabin]

theorem judgeMove_advance {n : Nat} (hr : -(s.cfs.boarding.tStop : Int) ≤ r ∧ r ≤ s.cfs.boarding.tStop) (hk : m.kind = .advance n) :
    judgeMove m r s = finishA { m with status := .done, arrivalError := some (-r) } s := by
  simp only [judgeMove, hr, hk, and_self, ↓reduceIte]

theorem judgeMove_passed (hr : r < -(s.cfs.boarding.tStop : Int)) :
    judgeMove m r s = finishA { m with status := .aborted, arrivalError := some (-r), cause := some .position } s := by
  rw [judgeMove, if_neg (by omega), if_pos hr]

theorem judgeMove_short (hr : (s.cfs.boarding.tStop : Int) < r) (h : s.roc.target = 0 ∧ s.roc.limiting = .curve .move) :
    judgeMove m r s = finishA { m with status := .aborted, arrivalError := some (-r), cause := some .position } s := by
  rw [judgeMove, if_neg (by omega), if_neg (by omega), if_pos h]

theorem judgeMove_held (hr : (s.cfs.boarding.tStop : Int) < r) (h : ¬(s.roc.target = 0 ∧ s.roc.limiting = .curve .move)) :
    ∃ e : Int, judgeMove m r s = setSlot .a (some { m with arrivalError := some e }) s := by
  rw [judgeMove, if_neg (by omega), if_neg (by omega), if_neg h]
  exact ⟨_, rfl⟩

end Judgement

section Ends

variable {p : Port} {n : Nat} {m b : Move} {s : State}

theorem finishA_promotes (h : s.mvu.slotB = some b) (hb : b.status = .pending) :
    finishA m s = moveChanged .b none (activate b (moveChanged .a (some m) (limitRemove .move s))) :=
  promote_pending ((moveChanged_slotA (some m) (limitRemove .move s)).2.trans h) hb

theorem finishA_alone (h : ∀ b, s.mvu.slotB = some b → b.status ≠ .pending) :
    finishA m s = moveChanged .a (some m) (limitRemove .move s) :=
  promote_none fun b hb => h b ((moveChanged_slotA (some m) (limitRemove .move s)).2.symm.trans hb)

theorem taken_numbered (p : Port) (f : Frame) (sl : Slot) (n : Nat) (s : State) :
    (taken p f s).numbered sl n = s.numbered sl n := by
  have hslot : (taken p f s).slot sl = s.slot sl := by cases sl <;> simp only [State.slot, taken_mvu]
  rw [State.numbered, hslot, State.numbered]

theorem moveAnswer_accepted {a : MoveAnswer} {t : State} (h : a = .done t) : moveAnswer a = .accepted [] t := by rw [h]; rfl

theorem moveAnswer_refused {a : MoveAnswer} {r : Reason} (h : a = .refused r) : moveAnswer a = .refused r 0 := by rw [h]; rfl

end Ends

/-- Settles O54: cancel and resume by what the slots hold for the number, the promotion at an end, and the judgement. -/
theorem moveCancelAndResumeEndMove : Obligations.MoveCancelAndResumeEndMove := by
  refine ⟨fun p tag number s hfree => ?requests, fun m s => ?ends, fun s hreset => exec_controlUpdate hreset,
    fun s => moveUpdate_empty, fun m e s hm he => ?judgement⟩
  case requests =>
    intro n
    have hmay (c : Request) (hc : c = .moveCancel number ∨ c = .moveResume number) : portMay p (requestKind c) = true :=
      portMay_desk p (by rcases hc with rfl | rfl <;> simp [requestKind])
    have atA {m : Move} (hm : s.mvu.slotA = some m) (hn : m.number = n) (f : Frame) : (taken p f s).numbered .a n = some m :=
      (taken_numbered ..).trans (numbered_eq_some hm hn)
    have notA (h : ∀ m, s.mvu.slotA = some m → m.number ≠ n) (f : Frame) : (taken p f s).numbered .a n = none :=
      (taken_numbered ..).trans (numbered_eq_none h)
    have atB {m : Move} (hm : s.mvu.slotB = some m) (hn : m.number = n) (f : Frame) : (taken p f s).numbered .b n = some m :=
      (taken_numbered ..).trans (numbered_eq_some hm hn)
    have notB (h : ∀ m, s.mvu.slotB = some m → m.number ≠ n) (f : Frame) : (taken p f s).numbered .b n = none :=
      (taken_numbered ..).trans (numbered_eq_none h)
    constructor
    · intro f u
      have hk := hmay (.moveCancel number) (.inl rfl)
      refine ⟨fun m hm hn => ⟨fun ho => request_accepts hfree hk (moveAnswer_accepted
          (cancelMove_occupied (atA hm hn f) (m.occupiesA_iff.mpr ho))), fun h1 h2 => request_refuses hfree hk
          (moveAnswer_refused (cancelMove_final (atA hm hn f) ?_))⟩,
        fun hA => ⟨fun m hm hn hp => request_accepts hfree hk (moveAnswer_accepted
          (cancelMove_pending (notA hA f) (atB hm hn f) hp)), fun m hm hn hp => request_refuses hfree hk
          (moveAnswer_refused (cancelMove_ended (notA hA f) (atB hm hn f) hp)), fun hB => request_refuses hfree hk
          (moveAnswer_refused (cancelMove_unknown (notA hA f) (notB hB f)))⟩⟩
      exact Bool.eq_false_iff.mpr fun ho => (m.occupiesA_iff.mp ho).elim h1 h2
    · intro f u
      have hk := hmay (.moveResume number) (.inr rfl)
      exact ⟨fun m hm hn => ⟨fun ha => request_accepts hfree hk (moveAnswer_accepted (resumeMove_arrived (atA hm hn f) ha)),
          fun ha => request_refuses hfree hk (moveAnswer_refused (resumeMove_other (atA hm hn f) ha))⟩,
        fun hA => ⟨fun m hm hn => request_refuses hfree hk (moveAnswer_refused (resumeMove_slotB (notA hA f) (atB hm hn f))),
          fun hB => request_refuses hfree hk (moveAnswer_refused (resumeMove_unknown (notA hA f) (notB hB f)))⟩⟩
  case ends =>
    intro t
    let x := moveChanged .a (some m) (limitRemove .move s)
    refine ⟨fun b hs hb => ?_, fun hb => ?_⟩
    · intro line
      have ht : t = moveChanged .b none (activate b x) := finishA_promotes hs hb
      have htarget : x.moveTarget b.kind = line := by
        cases hk : b.kind <;> simp only [line, hk, State.moveTarget] <;> rfl
      have hremaining : x.moveRemaining b.kind = s.moveRemaining b.kind := by
        cases b.kind <;> rfl
      rw [ht, State.limit, moveChanged_roc, (moveChanged_slotB none _).1, (moveChanged_slotB none _).2, activate,
        (moveChanged_slotA _ _).1, moveChanged_roc, htarget, hremaining]
      exact ⟨rfl, rfl, limitInsert_limit_self ..⟩
    · have ht : t = x := finishA_alone hb
      rw [ht, State.limit, moveChanged_roc, (moveChanged_slotA _ _).1, (moveChanged_slotA _ _).2]
      exact ⟨rfl, rfl, limitRemove_limit_self .move s⟩
  case judgement =>
    intro r tolerance stopped
    have hupdate := moveUpdate_eq hm he
    refine ⟨fun h => hupdate.trans (if_neg ?_), fun ha hs => ?_⟩
    · rintro ⟨ha, hs⟩
      rcases h with h | h
      · exact h ha
      · exact absurd (hs.symm.trans h) nofun
    rw [hupdate, if_pos ⟨ha, hs⟩]
    refine ⟨fun h1 h2 => ⟨fun k hk => ?_, fun n hk => judgeMove_advance ⟨h1, h2⟩ hk⟩, fun h => ?_, judgeMove_held⟩
    · have hjudge := judgeMove_stop (m := m) (s := s) ⟨h1, h2⟩ hk
      exact ⟨fun hp => hjudge.trans (if_neg hp), fun hp => hjudge.trans (if_pos hp)⟩
    · rcases h with h | ⟨h, hst⟩
      · exact judgeMove_passed h
      · exact judgeMove_short h hst

end Sys2Proof.Machine

/-! Proofs: CONFIG_SET: its judgement step by step (R180, R189), and what it writes and answers. -/

namespace Sys2Proof.Machine

/-! ### Steps 4 and 5 over first values that pass -/

section Lists

/-- Numbers that pass step 4 leave it to the rest of the list. -/
theorem numberFailure_append {count : Nat} {pre rest : List Nat} (hr : ∀ x ∈ pre, 1 ≤ x ∧ x ≤ count) (hd : pre.Nodup) :
    ∀ {i : Nat} {seen : List Nat}, (∀ x ∈ pre, x ∉ seen) →
      numberFailure count i seen (pre ++ rest) = numberFailure count (i + pre.length) (pre.reverse ++ seen) rest := by
  induction pre with
  | nil => intro i seen _; rfl
  | cons x xs ih =>
    intro i seen hs
    obtain ⟨hx, hxs⟩ := List.nodup_cons.mp hd
    obtain ⟨h1, hc⟩ := hr x (List.mem_cons_self ..)
    have hfresh : x ∉ seen := hs x (List.mem_cons_self ..)
    have hpass : ¬(x = 0 ∨ count < x ∨ x ∈ seen) := by
      rintro (h | h | h)
      · omega
      · omega
      · exact hfresh h
    rw [List.cons_append, numberFailure, if_neg hpass,
      ih (fun y hy => hr y (List.mem_cons_of_mem _ hy)) hxs, List.length_cons, List.reverse_cons, List.append_assoc,
      Nat.add_right_comm, Nat.add_assoc]
    · rfl
    · intro y hy hy'
      rcases List.mem_cons.mp hy' with rfl | h
      · exact hx hy
      · exact hs y (List.mem_cons_of_mem _ hy) h

theorem numberFailure_pass {count : Nat} {ns : List Nat} (hr : ∀ x ∈ ns, 1 ≤ x ∧ x ≤ count) (hd : ns.Nodup) :
    numberFailure count 0 [] ns = none := by
  have h := numberFailure_append (rest := []) hr hd (i := 0) (seen := []) (fun _ _ => List.not_mem_nil)
  rwa [List.append_nil] at h

/-- The first number that the entry does not hold, or that stands a second time (R180 step 4). -/
theorem numberFailure_first {count n : Nat} {pre post : List Nat} (hr : ∀ x ∈ pre, 1 ≤ x ∧ x ≤ count) (hd : pre.Nodup)
    (hn : n = 0 ∨ count < n ∨ n ∈ pre) : numberFailure count 0 [] (pre ++ n :: post) = some pre.length := by
  rw [numberFailure_append hr hd (fun _ _ => List.not_mem_nil), Nat.zero_add, numberFailure, if_pos]
  simpa using hn

theorem nodup_of_numberFailure {count : Nat} {ns : List Nat} :
    ∀ {i : Nat} {seen : List Nat}, numberFailure count i seen ns = none → ns.Nodup ∧ ∀ x ∈ ns, x ∉ seen := by
  induction ns with
  | nil => exact fun _ => ⟨List.nodup_nil, fun _ h => absurd h List.not_mem_nil⟩
  | cons n ns ih =>
    intro i seen h
    rw [numberFailure] at h
    split at h
    · cases h
    · next hn =>
      simp only [not_or] at hn
      obtain ⟨hd, hs⟩ := ih h
      refine ⟨List.nodup_cons.mpr ⟨fun hm => hs n hm (List.mem_cons_self ..), hd⟩, fun x hx => ?_⟩
      rcases List.mem_cons.mp hx with rfl | hx
      · exact hn.2.2
      · exact fun hm => hs x hx (List.mem_cons_of_mem _ hm)

/-- A value lies in its field's range (R180 step 5). -/
def inRange (fields : List Field) (x : Nat × Int) : Prop :=
  (nth fields x.1 (field 1 0 0)).low ≤ x.2 ∧ x.2 ≤ (nth fields x.1 (field 1 0 0)).high

theorem rangeFailure_append {fields : List Field} {pre rest : List (Nat × Int)} (h : ∀ x ∈ pre, inRange fields x) :
    ∀ {i : Nat}, rangeFailure fields i (pre ++ rest) = rangeFailure fields (i + pre.length) rest := by
  induction pre with
  | nil => intro i; rfl
  | cons x xs ih =>
    intro i
    rw [List.cons_append, rangeFailure]
    refine (if_pos (h x (List.mem_cons_self ..))).trans ?_
    rw [ih fun y hy => h y (List.mem_cons_of_mem _ hy), List.length_cons]
    congr 1
    omega

theorem rangeFailure_pass {fields : List Field} {l : List (Nat × Int)} (h : ∀ x ∈ l, inRange fields x) :
    rangeFailure fields 0 l = none := by
  have := rangeFailure_append (rest := []) h (i := 0)
  rwa [List.append_nil] at this

theorem rangeFailure_first {fields : List Field} {pre post : List (Nat × Int)} {x : Nat × Int}
    (h : ∀ y ∈ pre, inRange fields y) (hx : ¬inRange fields x) :
    rangeFailure fields 0 (pre ++ x :: post) = some pre.length := by
  rw [rangeFailure_append h, Nat.zero_add]
  exact if_neg hx

/-- The place of the first of some numbers (R19, R117). -/
theorem placeOf_first {numbers : List Nat} {pre post : List (Nat × Int)} {x : Nat × Int} (h : ∀ y ∈ pre, y.1 ∉ numbers)
    (hx : x.1 ∈ numbers) : placeOf numbers (pre ++ x :: post) = some pre.length := by
  unfold placeOf
  rw [List.findIdx?_append, List.findIdx?_eq_none_iff.mpr (by simpa using h), List.findIdx?_cons,
    if_pos (by simpa using hx)]
  simp

end Lists

/-! ### The six steps (R180) -/

section Judgement

variable {table index : Byte} {raw : List (Byte × Quad)} {s : State} {t : Table} {e : Entry}

/-- The values of a request as its table reads them. -/
def Table.valuesRead (t : Table) (raw : List (Byte × Quad)) : List (Nat × Int) := raw.map fun x => (x.1.toNat, t.read x.2)

theorem judgeConfig_unknown (h : Table.ofNumber table.toNat = none) : judgeConfig table index raw s = .refused .badField 1 := by
  rw [judgeConfig, h]

theorem judgeConfig_noEntry (ht : Table.ofNumber table.toNat = some t) (h : t.entry index.toNat = none) :
    judgeConfig table index raw s = .refused .badField 2 := by
  simp only [judgeConfig, ht, h]

theorem judgeConfig_entry (ht : Table.ofNumber table.toNat = some t) (h : t.entry index.toNat = some e) :
    judgeConfig table index raw s =
      if t.configOnly && s.cfs.device == .service then .refused .wrongState 0 else judgeValues t e index raw s := by
  simp only [judgeConfig, ht, h]

theorem Table.configOnly_iff {n : Nat} (h : Table.ofNumber n = some t) : t.configOnly = true ↔ n ≤ 4 := by
  unfold Table.ofNumber at h
  split at h <;> cases h <;> simp [Table.configOnly]

theorem judgeConfig_inService (ht : Table.ofNumber table.toNat = some t) (h : t.entry index.toNat = some e)
    (hn : table.toNat ≤ 4) (hd : s.cfs.device = .service) : judgeConfig table index raw s = .refused .wrongState 0 := by
  rw [judgeConfig_entry ht h, if_pos]
  rw [(Table.configOnly_iff ht).mpr hn, hd]
  rfl

theorem judgeConfig_values (ht : Table.ofNumber table.toNat = some t) (h : t.entry index.toNat = some e)
    (hs : s.cfs.device = .config ∨ 4 < table.toNat) : judgeConfig table index raw s = judgeValues t e index raw s := by
  rw [judgeConfig_entry ht h, if_neg]
  rw [Bool.and_eq_true, Table.configOnly_iff ht, beq_iff_eq]
  rintro ⟨hn, hd⟩
  rcases hs with hs | hs
  · exact Device.noConfusion (hs.symm.trans hd)
  · omega

theorem valuesRead_numbers (t : Table) (raw : List (Byte × Quad)) :
    (t.valuesRead raw).map (·.1) = raw.map fun x => x.1.toNat := by
  rw [Table.valuesRead, List.map_map]
  rfl

theorem judgeValues_number {i : Nat} (h : numberFailure t.fields.length 0 [] (raw.map fun x => x.1.toNat) = some i) :
    judgeValues t e index raw s = .refused .badField (numberField i) := by
  rw [← valuesRead_numbers t] at h
  unfold Table.valuesRead at h
  simp only [judgeValues, h]

theorem judgeValues_range {i : Nat} (h : numberFailure t.fields.length 0 [] (raw.map fun x => x.1.toNat) = none)
    (hr : rangeFailure t.fields 0 (t.valuesRead raw) = some i) :
    judgeValues t e index raw s = .refused .badField (valueField i) := by
  rw [← valuesRead_numbers t] at h
  unfold Table.valuesRead at h hr
  simp only [judgeValues, h, hr]

theorem judgeValues_relation {n : Nat} (h : numberFailure t.fields.length 0 [] (raw.map fun x => x.1.toNat) = none)
    (hr : rangeFailure t.fields 0 (t.valuesRead raw) = none)
    (hf : relationFailure t index raw (t.valuesRead raw) (withValues (s.values e) (t.valuesRead raw)) = some n) :
    judgeValues t e index raw s = .refused .badField n := by
  rw [← valuesRead_numbers t] at h
  unfold Table.valuesRead at h hr hf
  simp only [judgeValues, h, hr, hf]

theorem judgeValues_accepted (h : numberFailure t.fields.length 0 [] (raw.map fun x => x.1.toNat) = none)
    (hr : rangeFailure t.fields 0 (t.valuesRead raw) = none)
    (hf : relationFailure t index raw (t.valuesRead raw) (withValues (s.values e) (t.valuesRead raw)) = none) :
    judgeValues t e index raw s = .accepted t e (t.valuesRead raw) (withValues (s.values e) (t.valuesRead raw)) := by
  rw [← valuesRead_numbers t] at h
  unfold Table.valuesRead at h hr hf ⊢
  simp only [judgeValues, h, hr, hf]

/-- What an accepted judgement has found. -/
theorem judgeValues_found {t' : Table} {e' : Entry} {list : List (Nat × Int)} {v : List Int}
    (h : judgeValues t e index raw s = .accepted t' e' list v) :
    t' = t ∧ e' = e ∧ list = t.valuesRead raw ∧ v = withValues (s.values e) list ∧
      numberFailure t.fields.length 0 [] (raw.map fun x => x.1.toNat) = none := by
  rw [← valuesRead_numbers t]
  unfold judgeValues at h
  dsimp only at h
  split at h
  · cases h
  · next hn =>
    split at h
    · cases h
    · split at h
      · cases h
      · cases h
        exact ⟨rfl, rfl, rfl, rfl, hn⟩

/-! ### The relations (R19, R113, R117) -/

variable {list : List (Nat × Int)} {v : List Int}

theorem relationFailure_speeds (h : nth v 7 0 < nth v 8 0) :
    relationFailure .speeds index raw list v = some (speedsField list) := if_neg (Int.not_le.mpr h)

theorem relationFailure_balance (h : ¬(nth v 3 0 < nth v 2 0 ∧ nth v 2 0 ≤ nth v 1 0)) :
    relationFailure .balance index raw list v = some (valueField 0) := if_neg h

theorem relationFailure_channel (h : nth v 1 0 = 1 ∧ nth v 2 0 = 0) :
    relationFailure .windChannels index raw list v = some (kcField index raw list) := if_pos h

theorem relationFailure_none (hs : ¬(t = .speeds ∧ nth v 7 0 < nth v 8 0))
    (hb : ¬(t = .balance ∧ ¬(nth v 3 0 < nth v 2 0 ∧ nth v 2 0 ≤ nth v 1 0)))
    (hc : ¬(t = .windChannels ∧ nth v 1 0 = 1 ∧ nth v 2 0 = 0)) : relationFailure t index raw list v = none := by
  cases t with
  | speeds => exact if_pos (Int.not_lt.mp fun h => hs ⟨rfl, h⟩)
  | balance => exact if_pos (Decidable.not_not.mp fun h => hb ⟨rfl, h⟩)
  | windChannels => exact if_neg fun h => hc ⟨rfl, h⟩
  | geometry | zones | ring | boarding | inputs | faultCtl | link => rfl

end Judgement

/-- A value's field by its number. -/
theorem field_of_number {l : List Field} {n : Nat} (h1 : 1 ≤ n) (hn : n ≤ l.length) (d : Field) :
    l[n - 1]? = some (nth l n d) := by
  obtain ⟨k, rfl⟩ := Nat.exists_eq_add_of_le' h1
  have hk : k < l.length := by omega
  simp [nth, hk]

/-- Settles O38: the six steps in their order, each over the first value that fails it. -/
theorem configSetJudgedInOrder : Obligations.ConfigSetJudgedInOrder := by
  intro number index values s
  refine ⟨judgeConfig_unknown, fun t ht => ⟨judgeConfig_noEntry ht, fun e he => ⟨judgeConfig_inService ht he, fun hs => ?_⟩⟩⟩
  rw [judgeConfig_values ht he hs]
  have nodup_numbers {l : List (Byte × Quad)} (h : (l.map Prod.fst).Nodup) : (l.map fun x => x.1.toNat).Nodup :=
    List.pairwise_map.mpr ((List.pairwise_map.mp h).imp fun hne heq => hne (BitVec.eq_of_toNat_eq heq))
  have held {l : List (Byte × Quad)} (h : ∀ x ∈ l, 1 ≤ x.1.toNat ∧ x.1.toNat ≤ t.fields.length) :
      ∀ n ∈ l.map fun x => x.1.toNat, 1 ≤ n ∧ n ≤ t.fields.length := by
    rintro n hn
    obtain ⟨x, hx, rfl⟩ := List.mem_map.mp hn
    exact h x hx
  refine ⟨fun pre n q post hl hr hd hn => ?number, fun t' e' list v ha => ?accepted, fun hr hd => ?ranges⟩
  case number =>
    refine judgeValues_number ?_
    rw [hl, List.map_append, List.map_cons, numberFailure_first (held hr) (nodup_numbers hd), List.length_map]
    rcases hn with hn | hn | hn
    · exact .inl hn
    · exact .inr (.inl hn)
    · refine .inr (.inr ?_)
      obtain ⟨x, hx, rfl⟩ := List.mem_map.mp hn
      exact List.mem_map.mpr ⟨x, hx, rfl⟩
  case accepted =>
    obtain ⟨h1, h2, h3, h4, h5⟩ := judgeValues_found ha
    refine ⟨h1, h2, h3, h4, ?_⟩
    obtain ⟨hd, -⟩ := nodup_of_numberFailure h5
    rw [show (values.map fun x => x.1.toNat) = (values.map Prod.fst).map fun x : Byte => x.toNat by rw [List.map_map]; rfl] at hd
    exact (List.pairwise_map.mp hd).imp fun hne heq => hne (congrArg _ heq)
  case ranges =>
    intro fits list v badSpeeds badBalance badChannel
    have hnumbers := numberFailure_pass (held hr) (nodup_numbers hd)
    have fits_iff (x : Byte × Quad) (hx : x ∈ values) : fits x ↔ inRange t.fields (x.1.toNat, t.read x.2) := by
      obtain ⟨h1, hn⟩ := hr x hx
      have hf := field_of_number h1 hn (field 1 0 0)
      exact ⟨fun h => h _ hf, fun h f hf' => by obtain rfl := Option.some.inj (hf.symm.trans hf'); exact h⟩
    have read_split {pre post : List (Byte × Quad)} {x : Byte × Quad} (hl : values = pre ++ x :: post) :
        t.valuesRead values = t.valuesRead pre ++ (x.1.toNat, t.read x.2) :: t.valuesRead post := by
      rw [hl]
      simp [Table.valuesRead]
    have read_length (pre : List (Byte × Quad)) : (t.valuesRead pre).length = pre.length := List.length_map ..
    refine ⟨fun pre x post hl hpre hx => ?range, fun hall => ?relation⟩
    case range =>
      refine judgeValues_range hnumbers ?_
      rw [read_split hl, rangeFailure_first, read_length]
      · intro y hy
        obtain ⟨z, hz, rfl⟩ := List.mem_map.mp hy
        exact (fits_iff z (by rw [hl]; exact List.mem_append_left _ hz)).mp (hpre z hz)
      · exact fun h => hx ((fits_iff x (by rw [hl]; simp)).mpr h)
    case relation =>
      have hrange : rangeFailure t.fields 0 (t.valuesRead values) = none := rangeFailure_pass fun y hy => by
        obtain ⟨z, hz, rfl⟩ := List.mem_map.mp hy
        exact (fits_iff z hz).mp (hall z hz)
      have place {numbers : List Nat} {pre post : List (Byte × Quad)} {x : Byte × Quad} (hl : values = pre ++ x :: post)
          (hpre : ∀ y ∈ pre, y.1.toNat ∉ numbers) (hx : x.1.toNat ∈ numbers) :
          placeOf numbers (t.valuesRead values) = some pre.length := by
        rw [read_split hl, placeOf_first _ hx, read_length]
        intro y hy
        obtain ⟨z, hz, rfl⟩ := List.mem_map.mp hy
        exact hpre z hz
      refine ⟨fun hbad pre x post hl hpre hx => ?speeds, fun hbad => ?balance, fun hbad => ?channel, fun h1 h2 h3 =>
        judgeValues_accepted hnumbers hrange (relationFailure_none h1 h2 h3)⟩
      case speeds =>
        obtain ⟨rfl, hlt⟩ := hbad
        rw [judgeValues_relation hnumbers hrange (relationFailure_speeds hlt), speedsField,
          place (numbers := [7, 8]) hl]
        · rfl
        · intro y hy
          obtain ⟨h7, h8⟩ := hpre y hy
          simpa using ⟨fun h => h7 (BitVec.eq_of_toNat_eq h), fun h => h8 (BitVec.eq_of_toNat_eq h)⟩
        · rcases hx with hx | hx <;> rw [hx] <;> decide
      case balance =>
        obtain ⟨rfl, hne⟩ := hbad
        exact judgeValues_relation hnumbers hrange (relationFailure_balance hne)
      case channel =>
        obtain ⟨rfl, heq⟩ := hbad
        refine ⟨_, judgeValues_relation hnumbers hrange (relationFailure_channel heq), fun pre x post hl hx => ?_⟩
        have hplace := place (numbers := [2]) hl ?_ (by rw [hx]; decide)
        · simp only [kcField, hplace]
          rfl
        · intro y hy hy2
          rw [hl, List.map_append, List.map_cons, List.nodup_append] at hd
          refine hd.2.2 _ (List.mem_map_of_mem hy) _ (List.mem_cons_self ..) ?_
          rw [hx]
          exact BitVec.eq_of_toNat_eq (List.mem_singleton.mp hy2)

/-! ### The request (R180, R181) -/

section Request

variable {p : Port} {f : Frame} {s : State} {table index : Byte} {raw : List (Byte × Quad)}

/-- Hearing and taking a frame leave the LINK table entries. -/
theorem taken_linkEntry (p : Port) (f : Frame) (s : State) (q : Port) :
    ((taken p f s).port q).presenceTime = (s.port q).presenceTime ∧
      ((taken p f s).port q).presenceLevel = (s.port q).presenceLevel := by
  obtain ⟨_, _, hheard⟩ := heard_port p s
  by_cases hq : q = p
  · rw [hq, taken, setPort_port_self, hheard]
    exact ⟨rfl, rfl⟩
  · have hother : (heard p s).port q = s.port q := by
      unfold heard
      split
      · exact setPort_port_other _ hq _
      · rfl
    rw [taken, setPort_port_other _ hq, hother]
    exact ⟨rfl, rfl⟩

theorem values_taken (e : Entry) : (taken p f s).values e = s.values e := by
  cases e with
  | linkPort q =>
    obtain ⟨ht, hl⟩ := taken_linkEntry p f s q
    simp only [State.values, ht, hl]
  | windChannel c => simp only [State.values, State.channel, taken_wmn]
  | inputGroup g => simp only [State.values, taken_group]
  | faultBank b => simp only [State.values, taken_bank]
  | geometry | zones | speeds | ring | boarding | balance => simp only [State.values, taken_cfs]

theorem judgeConfig_taken : judgeConfig table index raw (taken p f s) = judgeConfig table index raw s := by
  simp only [judgeConfig, judgeValues, values_taken, taken_cfs]

theorem answerConfigSet_accepted {t : Table} {e : Entry} {list : List (Nat × Int)} {v : List Int}
    (h : judgeConfig table index raw s = .accepted t e list v) :
    answerConfigSet table index raw s = .accepted
      (be1 t.number ++ be1 index.toNat ++ valueBytes t ((configWrite e list v s).values e)) (configWrite e list v s) := by
  simp only [answerConfigSet, h]

theorem answerConfigSet_refused {r : Reason} {n : Nat} (h : judgeConfig table index raw s = .refused r n) :
    answerConfigSet table index raw s = .refused r n := by
  simp only [answerConfigSet, h]

end Request

/-- Settles O37: each of the ten commands is the CONFIG_SET of its table, which its judgement accepts or refuses. -/
theorem configSetWritesEntry : Obligations.ConfigSetWritesEntry := by
  intro tag index values s hfree hok number command hmem f u
  have hexec : exec command s = requestArrives .p1 tag (.configSet number index values) s := by
    simp only [List.mem_cons, Prod.mk.injEq, List.not_mem_nil, or_false] at hmem
    rcases hmem with ⟨rfl, rfl⟩ | ⟨rfl, rfl⟩ | ⟨rfl, rfl⟩ | ⟨rfl, rfl⟩ | ⟨rfl, rfl⟩ | ⟨rfl, rfl⟩ | ⟨rfl, rfl⟩ |
      ⟨rfl, rfl⟩ | ⟨rfl, rfl⟩ | ⟨rfl, rfl⟩ <;> rfl
  rw [hexec]
  exact ⟨fun t e list v h => request_accepts hfree rfl (answerConfigSet_accepted (judgeConfig_taken.trans h)) hok,
    fun r n h => request_refuses hfree rfl (answerConfigSet_refused (judgeConfig_taken.trans h)) hok⟩

end Sys2Proof.Machine

/-! Proofs: what a change of the hold set can reach, said once, and the effects of the configuration writes (R180). -/

namespace Sys2Proof.Machine

/-! ### What a change of the hold set reaches (R136, R139) -/

/-- t comes from s by changes of the hold set and their hand-overs: the set, the wheel with the moves' limit point, moves and
trial, the record of the boarding move, and the ports. -/
def HoldChanged (s t : State) : Prop :=
  ∃ m r b h l, t = { s with mvu := m, roc := r, bsq := { s.bsq with boardingMove := b }, hlu := h, lkp := l } ∧
    otherLimits r.limits = otherLimits s.roc.limits

section HoldChanged

variable {s t u : State}

theorem HoldChanged.refl (s : State) : HoldChanged s s := ⟨s.mvu, s.roc, s.bsq.boardingMove, s.hlu, s.lkp, rfl, rfl⟩

theorem HoldChanged.trans (h : HoldChanged s t) (k : HoldChanged t u) : HoldChanged s u := by
  obtain ⟨_, _, _, _, _, rfl, hl⟩ := h
  obtain ⟨m, r, b, v, l, rfl, hl'⟩ := k
  exact ⟨m, r, b, v, l, rfl, hl'.trans hl⟩

theorem HoldChanged.ite {c : Prop} [Decidable c] (h : HoldChanged s t) (k : HoldChanged s u) :
    HoldChanged s (if c then t else u) := by
  split
  · exact h
  · exact k

theorem HoldChanged.ptr (h : HoldChanged s t) : t.ptr = s.ptr := by obtain ⟨_, _, _, _, _, rfl, -⟩ := h; rfl

theorem HoldChanged.cru (h : HoldChanged s t) : t.cru = s.cru := by obtain ⟨_, _, _, _, _, rfl, -⟩ := h; rfl

theorem HoldChanged.bsq (h : HoldChanged s t) : t.bsq = { s.bsq with boardingMove := t.bsq.boardingMove } := by
  obtain ⟨_, _, _, _, _, rfl, -⟩ := h; rfl

theorem HoldChanged.wmn (h : HoldChanged s t) : t.wmn = s.wmn := by obtain ⟨_, _, _, _, _, rfl, -⟩ := h; rfl

theorem HoldChanged.pim (h : HoldChanged s t) : t.pim = s.pim := by obtain ⟨_, _, _, _, _, rfl, -⟩ := h; rfl

theorem HoldChanged.fbu (h : HoldChanged s t) : t.fbu = s.fbu := by obtain ⟨_, _, _, _, _, rfl, -⟩ := h; rfl

theorem HoldChanged.cfs (h : HoldChanged s t) : t.cfs = s.cfs := by obtain ⟨_, _, _, _, _, rfl, -⟩ := h; rfl

theorem HoldChanged.time (h : HoldChanged s t) : t.time = s.time := by obtain ⟨_, _, _, _, _, rfl, -⟩ := h; rfl

theorem HoldChanged.limit (h : HoldChanged s t) {o : LimitOrigin} (ho : o ≠ .move) : t.limit o = s.limit o := by
  obtain ⟨_, _, _, _, _, rfl, hl⟩ := h
  exact find_of_otherLimits ho hl

theorem HoldChanged.cabin (h : HoldChanged s t) (k : Nat) : t.cabin k = s.cabin k := by
  obtain ⟨_, _, _, _, _, rfl, -⟩ := h; rfl

theorem HoldChanged.node (h : HoldChanged s t) (k : Nat) : t.node k = s.node k := by
  obtain ⟨_, _, _, _, _, rfl, -⟩ := h; rfl

theorem HoldChanged.occupied (h : HoldChanged s t) (k : Nat) : t.occupied k = s.occupied k := by
  obtain ⟨_, _, _, _, _, rfl, -⟩ := h; rfl

theorem holdForm_changed (id : HoldId) (c : HoldChange) (v : Option Level) (l : List HoldEntry) (s : State) :
    HoldChanged s (holdForm id c v l s) := ⟨_, _, _, _, _, holdForm_rest id c v l s, rfl⟩

theorem notify_changed (n : Notice) (s : State) : HoldChanged s (notify n s) := ⟨_, _, _, _, _, rfl, rfl⟩

theorem handToWheel_changed (previous : Level) (s : State) : HoldChanged s (handToWheel previous s) := by
  obtain ⟨m, r, b, l, h, hl⟩ := handToWheel_fields previous s
  exact ⟨m, r, b, s.hlu, l, h, hl⟩

theorem bringHomeHandOver_changed (s : State) : HoldChanged s (bringHomeHandOver s) := by
  unfold bringHomeHandOver
  split
  · exact (holdForm_changed ..).trans ((notify_changed ..).trans (handToWheel_changed ..))
  · exact (holdForm_changed ..).trans (handToWheel_changed ..)
  · exact .refl s

theorem bringHomeJudge_changed (s : State) : HoldChanged s (bringHomeJudge s) := by
  unfold bringHomeJudge
  split
  · exact (holdForm_changed ..).trans ((handToWheel_changed ..).trans (notify_changed ..))
  · exact (holdForm_changed ..).trans (handToWheel_changed ..)
  · exact .refl s

theorem holdRemove_changed (id : HoldId) (s : State) : HoldChanged s (holdRemove id s) :=
  .ite ((holdForm_changed ..).trans ((handToWheel_changed ..).trans (bringHomeHandOver_changed _))) (.refl s)

theorem holdInsert_changed (id : HoldId) (v : Level) (s : State) : HoldChanged s (holdInsert id v s) :=
  .ite (holdRemove_changed ..) ((holdForm_changed ..).trans ((handToWheel_changed ..).trans (bringHomeHandOver_changed _)))

theorem balanceJudge_changed (s : State) : HoldChanged s (balanceJudge s) :=
  .ite (.ite (holdRemove_changed ..) (.refl s)) (.ite (holdInsert_changed ..) (.refl s))

end HoldChanged

/-! ### The balance entry (R115) -/

section Balance

variable {s : State}

theorem balanceJudge_present (h : (s.hold .balance).isSome = true) :
    (balanceJudge s).hold .balance = if s.bsq.sumQ ≤ squaredThreshold s.cfs.balance.clear then none else s.hold .balance := by
  rw [balanceJudge, if_pos h]
  split
  · exact (holdRemove_content HoldId.noConfusion s).2.2.1
  · rfl

theorem balanceJudge_absent (h : s.hold .balance = none) :
    (balanceJudge s).hold .balance = if squaredThreshold s.cfs.balance.warn < s.bsq.sumQ then
      some { id := .balance, level := .slow, time := s.cfs.clock } else none := by
  rw [balanceJudge, if_neg (by rw [h]; nofun)]
  split
  · exact (holdInsert_content Level.noConfusion HoldId.noConfusion s).2.2.1
  · exact h

theorem squaredThreshold_nonneg (kg : Nat) : 0 ≤ squaredThreshold kg := Int.natCast_nonneg _

/-- With the sums at 0 no balance entry stands. -/
theorem balanceJudge_zero (h : s.bsq.sumQ = 0) : (balanceJudge s).hold .balance = none := by
  cases hs : (s.hold .balance).isSome with
  | true => rw [balanceJudge_present hs, if_pos (by rw [h]; exact squaredThreshold_nonneg _)]
  | false =>
    rw [balanceJudge_absent (by simpa using hs), if_neg (by rw [h]; exact Int.not_lt.mpr (squaredThreshold_nonneg _))]

/-- s with the sums of its stored loads in place (R112). -/
def State.withSums (s : State) : State :=
  { s with bsq := { s.bsq with
    sumX := s.formX, sumY := s.formY, sumQ := s.formX * s.formX + s.formY * s.formY } }

theorem formSums_eq (s : State) : formSums s = balanceJudge s.withSums := rfl

theorem formed_zero (h : ∀ k, (s.node k).load = 0) : s.formX = 0 ∧ s.formY = 0 := by
  have zero (f : Nat → Int) (l : List Nat) : l.foldl (fun x k => x + ((s.node k).load : Int) * f k) 0 = 0 := by
    induction l with
    | nil => rfl
    | cons k ks ih => rw [List.foldl_cons, h k, Int.natCast_zero, Int.zero_mul, Int.add_zero, ih]
  exact ⟨zero _ _, zero _ _⟩

end Balance

/-! ### What follows a change of cabins (R81, R98) -/

section Settle

variable {before s : State}

theorem slowJudge_fields (s : State) : ∃ l, slowJudge s = { s with roc := { s.roc with limits := l } } := by
  unfold slowJudge
  repeat' split
  all_goals exact ⟨_, rfl⟩

theorem settleCabins_steps (before s : State) : ∃ l, HoldChanged { s with roc := { s.roc with limits := l } } (settleCabins before s) := by
  obtain ⟨l, h⟩ := slowJudge_fields s
  refine ⟨l, ?_⟩
  rw [← h]
  exact .ite (.refl _) (bringHomeJudge_changed _)

theorem settleCabins_hold {id : HoldId} (h : id ≠ .boarding) : (settleCabins before s).hold id = s.hold id := by
  have hslow : (slowJudge s).hold id = s.hold id := hold_congr (slowJudge_hlu s).1 id
  unfold settleCabins
  dsimp only
  split
  · exact hslow
  · exact ((bringHomeJudge_own _).hold id h).trans hslow

/-- Until the SLOW target crosses its D line, the entry stands exactly while the target is wanted (R81). -/
theorem slowJudge_limit {k : Nat} (ht : s.bsq.slowTarget = some k) (hc : s.bsq.slowCrossed = false) :
    ((slowJudge s).limit .slow).isSome = s.slowWanted k := by
  unfold slowJudge
  rw [ht, hc]
  cases hw : s.slowWanted k with
  | true =>
    simp only [Bool.false_eq_true, ↓reduceIte, hw]
    split
    · assumption
    · rw [slowInsert, limitInsert_limit_self]
      rfl
  | false =>
    simp only [Bool.false_eq_true, ↓reduceIte, hw]
    rw [limitRemove_limit_self]
    rfl

theorem settleCabins_limit (o : LimitOrigin) (ho : o ≠ .move) : (settleCabins before s).limit o = (slowJudge s).limit o := by
  unfold settleCabins
  dsimp only
  split
  · rfl
  · exact (bringHomeJudge_changed _).limit ho

end Settle

/-! ### The effects table by table (R180) -/

section Effects

variable {s : State} {list : List (Nat × Int)} {v : List Int}

theorem nth_replicate {α : Type} (n k : Nat) (d : α) : nth (List.replicate n d) k d = d := by
  cases k with
  | zero => rfl
  | succ k =>
    rw [nth, List.getD_eq_getElem?_getD, List.getElem?_replicate]
    split <;> rfl

/-- The state that a GEOMETRY write hands to the sums (R1, R68, R76, R101, R111). -/
def geometryWritten (g : Geometry) (s : State) : State :=
  { s with
    cfs := { s.cfs with geometry := g }
    ptr := { s.ptr with referenced := false, angle := 0, latch := none, passRecords := List.replicate maxCabins none }
    cru := s.cru.geometryWritten
    bsq := { s.bsq with
      cabins := if g.n = s.cfs.geometry.n then s.bsq.cabins else renumbered (min g.n s.cfs.geometry.n) s.bsq.cabins
      angles := none } }

theorem geometryWrite_eq (g : Geometry) (s : State) :
    geometryWrite g s = settleCabins s (balanceJudge (geometryWritten g s).withSums) := rfl

theorem geometryWritten_sums (g : Geometry) (s : State) : (geometryWritten g s).withSums.bsq.sumX = 0 ∧
    (geometryWritten g s).withSums.bsq.sumY = 0 ∧ (geometryWritten g s).withSums.bsq.sumQ = 0 := by
  obtain ⟨hx, hy⟩ := formed_zero (s := geometryWritten g s) fun k => by
    rw [State.node, show (geometryWritten g s).cru.nodes = List.replicate maxCabins Node.cold from rfl, nth_replicate]
    rfl
  refine ⟨hx, hy, ?_⟩
  show (geometryWritten g s).formX * (geometryWritten g s).formX + (geometryWritten g s).formY * (geometryWritten g s).formY = 0
  rw [hx, hy]
  rfl

/-- What a GEOMETRY write reaches beyond its own records: what a change of the hold set does, and the SLOW entry. -/
theorem geometryWrite_changed (g : Geometry) (s : State) : ∃ u l,
    HoldChanged (geometryWritten g s).withSums u ∧
      HoldChanged { u with roc := { u.roc with limits := l } } (geometryWrite g s) := by
  obtain ⟨l, h⟩ := settleCabins_steps s (balanceJudge (geometryWritten g s).withSums)
  exact ⟨_, l, balanceJudge_changed _, geometryWrite_eq g s ▸ h⟩

theorem geometryWrite_balance (g : Geometry) (s : State) : (geometryWrite g s).hold .balance = none := by
  rw [geometryWrite_eq, settleCabins_hold HoldId.noConfusion]
  exact balanceJudge_zero (geometryWritten_sums g s).2.2

theorem written_same {c : ChannelRec} {on : Bool} (h : c.enable = on) (kc : Nat) : c.written on kc = { c with kc := kc } := by
  subst h
  exact if_pos rfl

theorem written_other {c : ChannelRec} {on : Bool} (h : c.enable ≠ on) (kc : Nat) :
    c.written on kc = { c.cleared with enable := on, kc := kc, validity := if on then .valid else .disabled } := by
  rw [ChannelRec.written, if_neg h]
  cases on <;> rfl

variable {g : GroupId} {a b : BitVec 8} {level : Level} {n : Bool}

theorem inputsWrite_same (h : (s.group g).select = a) (h' : (s.group g).expected = b) (hl : (s.group g).level = level) :
    inputsWrite g a b level n s = setGroup g ((s.group g).written a b level n) s := by
  simp only [inputsWrite, h, h', hl, ne_eq, not_true_eq_false, or_self, ↓reduceIte]

theorem inputsWrite_level (h : (s.group g).select = a) (h' : (s.group g).expected = b) (hl : (s.group g).level ≠ level) :
    inputsWrite g a b level n s = judgeInputs g (setGroup g ((s.group g).written a b level n) s) := by
  simp only [inputsWrite, h, h', hl, ne_eq, not_true_eq_false, or_self, ↓reduceIte, not_false_eq_true]

theorem inputsWrite_formed (h : (s.group g).select ≠ a ∨ (s.group g).expected ≠ b) :
    inputsWrite g a b level n s = reformGroup g .write (setGroup g ((s.group g).written a b level n) s) := if_pos h

/-- Whether a write's value list names a value. -/
theorem writes_iff {k : Nat} : writes k list = true ↔ ∃ x, (k, x) ∈ list := by
  simp only [writes, List.any_eq_true, beq_iff_eq]
  constructor
  · rintro ⟨⟨j, x⟩, hx, rfl⟩
    exact ⟨x, hx⟩
  · rintro ⟨x, hx⟩
    exact ⟨(k, x), hx, rfl⟩

theorem writes_false_iff {k : Nat} : writes k list = false ↔ ∀ x, (k, x) ∉ list := by
  rw [← Bool.not_eq_true, writes_iff, not_exists]

end Effects

section Link

variable {p : Port} {time : Nat} {level : Level} {a b : Bool} {s : State}

/-- The port after a LINK write, its presence timer stopped, started or left (R151). -/
def State.linkWritten (s : State) (p : Port) (time : Nat) (level : Level) (a : Bool) : PortState :=
  let q : PortState := { s.port p with presenceTime := time, presenceLevel := level }
  if a && time == 0 then q.presenceStopped
  else if a && time != 0 && s.cfs.device == .service && !(s.hold (.link p)).isSome then q.presenceStarted else q

theorem linkWrite_eq (p : Port) (time : Nat) (level : Level) (a b : Bool) (s : State) :
    linkWrite p time level a b s =
      let u := setPort p (s.linkWritten p time level a) s
      if a && time == 0 then holdRemove (.link p) u
      else if b && (s.hold (.link p)).isSome then holdInsert (.link p) level u else u := rfl

theorem linkWritten_entry (s : State) (p : Port) (time : Nat) (level : Level) (a : Bool) :
    (s.linkWritten p time level a).presenceTime = time ∧ (s.linkWritten p time level a).presenceLevel = level := by
  unfold State.linkWritten
  dsimp only
  repeat' split
  all_goals exact ⟨rfl, rfl⟩

/-- The port's own part of a LINK write stays as it is through the LINK entry's changes. -/
theorem linkWrite_port (p : Port) (time : Nat) (level : Level) (a b : Bool) (s : State) :
    ∃ x o l, (linkWrite p time level a b s).port p =
      { s.linkWritten p time level a with transmitter := x, outbox := o, noticeLost := l } := by
  have hev : Effect (setPort p (s.linkWritten p time level a) s) (linkWrite p time level a b s) := by
    rw [linkWrite_eq]
    exact .ite (holdRemove_event ..).effect (.ite (holdInsert_link ..).effect (.refl _))
  obtain ⟨x, o, l, h⟩ := hev.port_eq p
  rw [setPort_port_self] at h
  exact ⟨x, o, l, h⟩

end Link

/-! ### The group of an INPUTS write (R149) -/

section Inputs

variable {g : GroupId} {a b : BitVec 8} {level : Level} {n : Bool} {s : State}

/-- The group after an INPUTS write: the new values, formed afresh when they concern the match state. -/
theorem inputsWrite_group (g : GroupId) (a b : BitVec 8) (level : Level) (n : Bool) (s : State) :
    (inputsWrite g a b level n s).pim = (setGroup g
      (if (s.group g).select ≠ a ∨ (s.group g).expected ≠ b then
        ((s.group g).written a b level n).formed (((s.group g).written a b level n).matchOf (s.filteredMask g))
      else (s.group g).written a b level n) s).pim := by
  by_cases h : (s.group g).select ≠ a ∨ (s.group g).expected ≠ b
  · rw [inputsWrite_formed h, reformGroup_pim, if_pos h, setGroup_group_self,
      filteredMask_congr (setGroup_inputs g _ s)]
    cases g <;> rfl
  · rw [if_neg h]
    simp only [not_or, ne_eq, Decidable.not_not] at h
    by_cases hl : (s.group g).level = level
    · rw [inputsWrite_same h.1 h.2 hl]
    · rw [inputsWrite_level h.1 h.2 hl]
      exact (judgeInputs_entryOf g _).pim

theorem inputsWrite_agrees (h : (s.group g).select ≠ a ∨ (s.group g).expected ≠ b ∨ (s.group g).level ≠ level) :
    (inputsWrite g a b level n s).groupAgrees g := by
  by_cases hf : (s.group g).select ≠ a ∨ (s.group g).expected ≠ b
  · rw [inputsWrite_formed hf]
    exact reformGroup_agrees ..
  · simp only [not_or, ne_eq, Decidable.not_not] at hf
    have hl : (s.group g).level ≠ level := by
      rcases h with h | h | h
      · exact absurd hf.1 h
      · exact absurd hf.2 h
      · exact h
    rw [inputsWrite_level hf.1 hf.2 hl]
    exact judgeInputs_agrees ..

end Inputs

/-- Settles O39, table by table. -/
theorem configWriteEffects : Obligations.ConfigWriteEffects := by
  intro s list v
  refine ⟨?geometry, rfl, rfl, rfl, ?boarding, ?balance, fun ch => ?channel, fun g level hlevel => ?inputs, fun b => rfl,
    fun p h0 hw => ?linkStop, fun p level hlevel hn => ?link⟩
  case geometry =>
    intro t least
    obtain ⟨u, l, hu, ht⟩ := geometryWrite_changed (geometryOf v) s
    have hptr : t.ptr = (geometryWritten (geometryOf v) s).ptr := ht.ptr.trans hu.ptr
    have hcfs : t.cfs = (geometryWritten (geometryOf v) s).cfs := ht.cfs.trans hu.cfs
    have hbsq : t.bsq = { (geometryWritten (geometryOf v) s).withSums.bsq with boardingMove := t.bsq.boardingMove } := by
      have h := ht.bsq
      rw [hu.bsq] at h
      exact h
    obtain ⟨hx, hy, hq⟩ := geometryWritten_sums (geometryOf v) s
    refine ⟨by rw [hptr]; rfl, by rw [hptr]; rfl, by rw [hptr]; rfl, by rw [hptr]; rfl, by rw [hcfs]; rfl,
      by rw [hptr]; rfl, ht.wmn.trans hu.wmn, ht.cru.trans hu.cru, fun h => ?_, fun h => ?_, by rw [hbsq]; rfl,
      by rw [hbsq]; rfl, by rw [hbsq]; exact hx, by rw [hbsq]; exact hy, by rw [hbsq]; exact hq, geometryWrite_balance ..⟩
    · rw [hbsq]
      exact if_pos h
    · rw [hbsq]
      exact if_neg h
  case boarding =>
    intro t
    obtain ⟨l, h⟩ := settleCabins_steps s { s with cfs := { s.cfs with boarding := boardingOf v } }
    refine ⟨h.cfs, h.bsq, h.cru, h.fbu, fun k hk hc => ?_⟩
    have hlimit := slowJudge_limit (s := { s with cfs := { s.cfs with boarding := boardingOf v } }) hk hc
    rw [show t.limit .slow = _ from settleCabins_limit .slow LimitOrigin.noConfusion, hlimit]
    simp only [State.slowWanted, State.occupied, Bool.or_eq_true, bne_iff_ne, decide_eq_true_eq]
    rfl
  case balance =>
    intro t warn clear
    let u : State := { s with cfs := { s.cfs with balance := balanceOf v } }
    exact ⟨(balanceJudge_changed u).cfs, balanceJudge_present (s := u), balanceJudge_absent (s := u)⟩
  case channel =>
    intro c on
    exact ⟨fun h => congrArg (setChannel ch · s) (written_same h _), fun h => congrArg (setChannel ch · s) (written_other h _)⟩
  case inputs =>
    intro t c d
    let a := BitVec.ofNat 8 (natValue v 1)
    let b := BitVec.ofNat 8 (natValue v 2)
    have ht : t = inputsWrite g a b level (boolOf v 4) s := by
      show inputsWrite g a b ((Level.ofCode (natValue v 3)).getD .none) (boolOf v 4) s = _
      rw [hlevel]
      rfl
    have hpim := inputsWrite_group g a b level (boolOf v 4) s
    rw [← ht] at hpim
    have hd : d = if c.select ≠ a ∨ c.expected ≠ b then
        (c.written a b level (boolOf v 4)).formed ((c.written a b level (boolOf v 4)).matchOf (s.filteredMask g))
        else c.written a b level (boolOf v 4) :=
      (group_congr hpim g).trans (setGroup_group_self ..)
    have hothers (x : GroupId) (hx : x ≠ g) : t.group x = s.group x :=
      (group_congr hpim x).trans (setGroup_group_other s hx _)
    have hset : d.select = a ∧ d.expected = b ∧ d.level = level ∧ d.noticeEnable = boolOf v 4 := by
      rw [hd]
      split <;> exact ⟨rfl, rfl, rfl, rfl⟩
    obtain ⟨ha, hb, hl, hn⟩ := hset
    have hchanged : d.select ≠ c.select ∨ d.expected ≠ c.expected ↔ c.select ≠ a ∨ c.expected ≠ b := by
      rw [ha, hb, ne_comm, ne_comm (a := b)]
    refine ⟨ha, hb, hl, hn, hothers, fun hs he => ?_, fun h => ?_, fun hs he hv => ?_, fun h => ?_⟩
    · rw [hd, if_neg]
      · exact ⟨rfl, rfl⟩
      · rw [← hchanged]
        rintro (h | h)
        · exact h hs
        · exact h he
    · rw [hd, if_pos (hchanged.mp h)]
      exact ⟨matchOf_eq .., rfl⟩
    · rw [ht, inputsWrite_same (hs.symm.trans ha) (he.symm.trans hb) (hv.symm.trans hl), setGroup_hlu]
    · have hagrees : t.groupAgrees g := by
        rw [ht]
        refine inputsWrite_agrees ?_
        rw [ha, hb, hl] at h
        exact h.imp Ne.symm (Or.imp Ne.symm Ne.symm)
      refine ⟨hagrees.isSome_iff.trans (by rw [show (t.group g).level = level from hl]), fun e he => ?_⟩
      have hmap : (t.hold (.inputs g)).map HoldEntry.level = if d.calls then some d.level else none := hagrees
      rw [he, hl] at hmap
      split at hmap
      · exact Option.some.inj hmap
      · cases hmap
  case linkStop =>
    intro t
    have hw1 : (writes 1 list && natValue v 1 == 0) = true := by rw [writes_iff.mpr hw, h0]; rfl
    obtain ⟨x, o, l, hport⟩ := linkWrite_port p (natValue v 1) ((Level.ofCode (natValue v 2)).getD .noBoard) (writes 1 list)
      (writes 2 list) s
    have ht : t = holdRemove (.link p) (setPort p (s.linkWritten p (natValue v 1)
        ((Level.ofCode (natValue v 2)).getD .noBoard) (writes 1 list)) s) := if_pos hw1
    refine ⟨?_, ?_, ?_⟩
    · rw [show t.port p = _ from hport, State.linkWritten, if_pos hw1]
      rfl
    · rw [show t.port p = _ from hport]
      exact (linkWritten_entry ..).1.trans h0
    · rw [ht]
      exact (holdRemove_content HoldId.noConfusion _).2.2.1
  case link =>
    intro t stands
    obtain ⟨x, o, l, hport⟩ := linkWrite_port p (natValue v 1) level (writes 1 list) (writes 2 list) s
    have ht : t = linkWrite p (natValue v 1) level (writes 1 list) (writes 2 list) s := by
      show linkWrite p (natValue v 1) ((Level.ofCode (natValue v 2)).getD .noBoard) (writes 1 list) (writes 2 list) s = _
      rw [hlevel]
      rfl
    rw [← ht] at hport
    obtain ⟨htime, hlev⟩ := linkWritten_entry s p (natValue v 1) level (writes 1 list)
    refine ⟨by rw [hport]; exact htime, by rw [hport]; exact hlev, fun hw h0 => ?_, fun hw => ?_, fun hkeep => ⟨fun hw hs => ?_,
      fun hw => ?_⟩⟩
    · rw [hport, State.linkWritten, writes_iff.mpr hw, if_neg (by simpa using h0)]
      by_cases hc : s.cfs.device = .service ∧ stands = false
      · rw [if_pos hc, if_pos (by simpa [h0, stands] using hc)]
        rfl
      · rw [if_neg hc, if_neg (by simpa [h0, stands] using hc)]
    · rw [hport, State.linkWritten, writes_false_iff.mpr hw]
      rfl
    all_goals
      have hstop : ¬(writes 1 list && natValue v 1 == 0) = true := by
        rcases hkeep with h | h
        · rw [writes_false_iff.mpr h]
          exact Bool.false_ne_true
        · simp [h]
      rw [linkWrite_eq] at ht
      dsimp only at ht
      rw [if_neg hstop] at ht
    · rw [ht, if_pos (by rw [writes_iff.mpr hw]; exact hs)]
      exact (holdInsert_content hn HoldId.noConfusion _).2.2.1
    · rw [ht, if_neg]
      · exact setPort_hlu ..
      · rcases hw with h | h
        · rw [writes_false_iff.mpr h]
          exact Bool.false_ne_true
        · rw [show (s.hold (.link p)).isSome = false from h, Bool.and_false]
          exact Bool.false_ne_true

end Sys2Proof.Machine

/-! Proofs: the hold set's changes once the moves have ended, and DECOMMISSION (R187). -/

namespace Sys2Proof.Machine

/-! ### Changes that find the moves ended (R51, R139) -/

/-- No slot holds a move in progress. -/
def State.movesEnded (s : State) : Prop :=
  (∀ m, s.mvu.slotA = some m → m.occupiesA = false) ∧ ∀ m, s.mvu.slotB = some m → m.status ≠ .pending

/-- t comes from s by changes of the hold set that find no move in progress: the wheel as it was or tripped, and of the Move
Unit the trial at most. -/
def Rested (s t : State) : Prop :=
  ∃ trial r h l, t = { s with mvu := { s.mvu with trial := trial }, roc := r, hlu := h, lkp := l } ∧
    (r = s.roc ∨ s.roc.rotation ≠ .tripped ∧ r = tripRoc s.roc) ∧
    (s.mvu.trial.status ≠ .measuring → trial = s.mvu.trial)

section Rested

variable {s t u : State}

theorem endMoves_ended (h : s.movesEnded) (c : MoveCause) : endMoves c s = s := by
  obtain ⟨ha, hb⟩ := h
  have hslot : endSlotA c s = s := by
    unfold endSlotA
    split
    · rfl
    · next m hm => rw [if_neg (by rw [ha m hm]; nofun)]
  rw [endMoves_eq, hslot]
  unfold endSlotB
  split
  · rfl
  · next m hm => rw [if_neg (hb m hm)]

theorem Rested.movesEnded (h : Rested s t) (hs : s.movesEnded) : t.movesEnded := by
  obtain ⟨_, _, _, _, rfl, -, -⟩ := h
  exact hs

theorem Rested.refl (s : State) : Rested s s := ⟨s.mvu.trial, s.roc, s.hlu, s.lkp, rfl, .inl rfl, fun _ => rfl⟩

theorem Rested.of_set (h : t = { s with hlu := t.hlu, lkp := t.lkp }) : Rested s t :=
  ⟨s.mvu.trial, s.roc, t.hlu, t.lkp, h, .inl rfl, fun _ => rfl⟩

theorem tripRoc_rotation (r : Roc) : (tripRoc r).rotation = .tripped := by
  cases h : brakeEnergised r.rotation with
  | true => rw [tripRoc_lifted h]
  | false => rw [tripRoc_set h]

theorem Rested.trans (h : Rested s t) (k : Rested t u) : Rested s u := by
  obtain ⟨_, _, _, _, rfl, hr, hi⟩ := h
  obtain ⟨x, r, v, l, rfl, hr', hi'⟩ := k
  refine ⟨x, r, v, l, rfl, ?_, fun hidle => ?_⟩
  · rcases hr with rfl | ⟨hn, rfl⟩
    · exact hr'
    · rcases hr' with rfl | ⟨hn', -⟩
      · exact .inr ⟨hn, rfl⟩
      · exact absurd (tripRoc_rotation _) hn'
  · have hsame := hi hidle
    exact (hi' (hsame ▸ hidle)).trans hsame

theorem abortTrial_rested (c : TrialAbort) (s : State) : Rested s (abortTrial c s) := by
  by_cases h : s.mvu.trial.status = .measuring
  · exact ⟨_, _, _, _, abortTrial_measuring h, .inl rfl, fun hn => absurd h hn⟩
  · rw [abortTrial_idle h]
    exact .refl s

theorem trip_rested (s : State) : Rested s (trip s) := by
  obtain ⟨r, ns, ht, hsame, hmove, -⟩ := trip_eq s
  refine ⟨_, r, _, _, ht, ?_, fun _ => rfl⟩
  by_cases h : s.roc.rotation = .tripped
  · exact .inl (hsame h)
  · exact .inr ⟨h, hmove h⟩

theorem handToWheel_rested (h : s.movesEnded) (previous : Level) : Rested s (handToWheel previous s) := by
  by_cases hsame : s.hlu.effective = previous
  · rw [handToWheel_same hsame]
    exact .refl s
  by_cases hstop : s.hlu.effective = .stop
  · rw [handToWheel_stop hstop fun k => hsame (hstop.trans k.symm)]
    exact abortTrial_rested ..
  by_cases hpark : s.hlu.effective = .park
  · rw [handToWheel_park hpark fun k => hsame (hpark.trans k.symm), endMoves_ended ((trip_rested s).movesEnded h)]
    exact (trip_rested s).trans (abortTrial_rested ..)
  · rw [handToWheel_low hstop hpark]
    exact .refl s

theorem bringHomeHandOver_rested (h : s.movesEnded) : Rested s (bringHomeHandOver s) :=
  bringHomeHandOver_induction (.refl s) (fun _ k e => k.trans (.of_set e)) fun previous _ k =>
    k.trans (handToWheel_rested (k.movesEnded h) previous)

theorem hold_change_rested (h : s.movesEnded) (ht : t = { s with hlu := t.hlu, lkp := t.lkp }) (previous : Level) :
    Rested s (bringHomeHandOver (handToWheel previous t)) := by
  have hset := Rested.of_set ht
  have hwheel := hset.trans (handToWheel_rested (hset.movesEnded h) previous)
  exact hwheel.trans (bringHomeHandOver_rested (hwheel.movesEnded h))

theorem holdRemove_rested (h : s.movesEnded) (id : HoldId) : Rested s (holdRemove id s) := by
  unfold holdRemove
  split
  · exact hold_change_rested h (holdForm_rest ..) _
  · exact .refl s

theorem holdInsert_rested (h : s.movesEnded) (id : HoldId) (v : Level) : Rested s (holdInsert id v s) := by
  unfold holdInsert
  split
  · exact holdRemove_rested h id
  · exact hold_change_rested h (holdForm_rest ..) _

theorem Rested.limits (h : Rested s t) : t.roc.limits = s.roc.limits ∧ t.roc.runEnable = s.roc.runEnable := by
  obtain ⟨_, _, _, _, rfl, hr, -⟩ := h
  rcases hr with rfl | ⟨-, rfl⟩
  · exact ⟨rfl, rfl⟩
  · cases he : brakeEnergised s.roc.rotation with
    | true => rw [tripRoc_lifted he]; exact ⟨rfl, rfl⟩
    | false => rw [tripRoc_set he]; exact ⟨rfl, rfl⟩

end Rested

/-! ### DECOMMISSION (R187) -/

section Decommission

variable {s : State}

/-- The decommission up to the removal of the bring-home entry (R187). -/
def State.decommissioned (s : State) : State :=
  let m := endMoves .decommission { s with cfs := { s.cfs with device := .config }, roc := s.roc.decommissioned }
  { m with
    cru := m.cru.decommissioned
    lkp := { p1 := m.lkp.p1.presenceStopped, p2 := m.lkp.p2.presenceStopped }
    bsq := m.bsq.decommissioned }

theorem decommission_eq (s : State) : decommission s = holdRemove .boarding s.decommissioned := rfl

theorem wheelParked_iff : s.wheelParked = true ↔ s.roc.rotation = .braked ∨ s.roc.rotation = .tripped := by
  rw [State.wheelParked, Bool.or_eq_true, beq_iff_eq, beq_iff_eq]

/-- The end of the moves, slot by slot (R51, R52). -/
theorem endMoves_slots (c : MoveCause) (s : State) :
    (∀ m, s.mvu.slotA = some m → m.occupiesA = true →
      (endMoves c s).mvu.slotA = some { m with status := .aborted, cause := some c }) ∧
    (∀ m, s.mvu.slotB = some m → m.status = .pending →
      (endMoves c s).mvu.slotB = some { m with status := .cancelled }) ∧
    (endMoves c s).movesEnded ∧ (s.roc.limits = [] → (endMoves c s).roc.limits = []) := by
  obtain ⟨a, l, b, ms, hA, hunder, hfree⟩ := endSlotA_eq c s
  obtain ⟨x, b', ns, hB, hpending, hother⟩ := endSlotB_eq (endSlotA c s)
  rw [hA] at hpending hother
  rw [endMoves_eq, hB, hA]
  refine ⟨fun m hm ho => (hunder m hm ho).1, fun m hm hp => (hpending m hm hp).1, ⟨fun m hm => ?_, fun m hm => ?_⟩, fun hl => ?_⟩
  · change a = some m at hm
    by_cases ho : ∃ k, s.mvu.slotA = some k ∧ k.occupiesA = true
    · obtain ⟨k, hk, ho⟩ := ho
      obtain rfl := Option.some.inj ((hunder k hk ho).1.symm.trans hm)
      rfl
    · have hnone (k : Move) (hk : s.mvu.slotA = some k) : k.occupiesA = false := Bool.eq_false_iff.mpr fun h => ho ⟨k, hk, h⟩
      exact hnone m ((hfree hnone).1.symm.trans hm)
  · change x = some m at hm
    by_cases hp : ∃ k, s.mvu.slotB = some k ∧ k.status = .pending
    · obtain ⟨k, hk, hp⟩ := hp
      obtain rfl := Option.some.inj ((hpending k hk hp).1.symm.trans hm)
      nofun
    · have hnone (k : Move) (hk : s.mvu.slotB = some k) : k.status ≠ .pending := fun h => hp ⟨k, hk, h⟩
      exact hnone m ((hother hnone).1.symm.trans hm)
  · by_cases ho : ∃ k, s.mvu.slotA = some k ∧ k.occupiesA = true
    · obtain ⟨k, hk, ho⟩ := ho
      exact (hunder k hk ho).2.1.trans (by rw [hl, List.filter_nil])
    · exact (hfree fun k hk => Bool.eq_false_iff.mpr fun h => ho ⟨k, hk, h⟩).2.1.trans hl

/-- What the decommission leaves: the removal of the bring-home entry finds no move in progress and changes none of this. -/
theorem decommission_fields (s : State) :
    let t := decommission s
    t.cfs = { s.cfs with device := .config } ∧ t.roc.runEnable = false ∧ t.roc.limits = [] ∧ t.bsq.gate = none ∧
      (∀ p, (t.port p).presence = none) ∧ t.bsq.queue = s.bsq.queue ∧ t.wmn = s.wmn ∧ t.ptr = s.ptr ∧
      (∀ m, s.mvu.slotA = some m → m.occupiesA = true →
        t.mvu.slotA = some { m with status := .aborted, cause := some .decommission }) ∧
      ∀ m, s.mvu.slotB = some m → m.status = .pending → t.mvu.slotB = some { m with status := .cancelled } := by
  intro t
  let v : State := { s with cfs := { s.cfs with device := .config }, roc := s.roc.decommissioned }
  obtain ⟨hA, hB, hended, hlimits⟩ := endMoves_slots .decommission v
  obtain ⟨a, x, l, b, ns, hmoves, -⟩ := endMoves_fields .decommission v
  have hrest : Rested s.decommissioned t := holdRemove_rested (s := s.decommissioned) hended .boarding
  have hchange : HoldChanged s.decommissioned t := holdRemove_changed ..
  have hslots : t.mvu.slotA = (endMoves .decommission v).mvu.slotA ∧ t.mvu.slotB = (endMoves .decommission v).mvu.slotB := by
    obtain ⟨_, _, _, _, h, -, -⟩ := hrest
    rw [h]
    exact ⟨rfl, rfl⟩
  have hbefore : s.decommissioned.cfs = v.cfs ∧ s.decommissioned.roc.runEnable = false ∧ s.decommissioned.bsq.queue = s.bsq.queue ∧
      s.decommissioned.wmn = s.wmn ∧ s.decommissioned.ptr = s.ptr := by
    rw [State.decommissioned, hmoves]
    exact ⟨rfl, rfl, rfl, rfl, rfl⟩
  obtain ⟨hcfs, hrun, hqueue, hwmn, hptr⟩ := hbefore
  refine ⟨hchange.cfs.trans hcfs, hrest.limits.2.trans hrun, hrest.limits.1.trans (hlimits rfl), ?_, fun p => ?_, ?_,
    hchange.wmn.trans hwmn, hchange.ptr.trans hptr, fun m hm ho => hslots.1.trans (hA m hm ho),
    fun m hm hp => hslots.2.trans (hB m hm hp)⟩
  · rw [hchange.bsq]
    rfl
  · obtain ⟨_, _, _, hport⟩ := holdRemove_port .boarding s.decommissioned p
    rw [show t.port p = _ from hport]
    cases p <;> rfl
  · rw [hchange.bsq]
    exact hqueue

/-- Settles O41: the moves end in their slots, the blocks take their decommission, and the removal of the bring-home entry,
which finds no move in progress, leaves all of that as it is. -/
theorem decommissionLeavesService : Obligations.DecommissionLeavesService := by
  unfold Obligations.DecommissionLeavesService
  intro tag s hfree f t
  have hdevice : (taken .p1 f s).cfs.device = s.cfs.device := congrArg Cfs.device (taken_cfs .p1 f s)
  have hparked : (taken .p1 f s).wheelParked = true ↔ s.roc.rotation = .braked ∨ s.roc.rotation = .tripped := by
    rw [wheelParked_iff, taken_roc]
  refine ⟨fun h => ?_, fun hservice hrest => ⟨?_, ?_⟩⟩
  · refine request_refuses hfree rfl (if_neg fun k => ?_)
    rcases h with h | ⟨hb, ht⟩
    · exact Device.noConfusion (k.1.symm.trans (hdevice.trans h))
    · exact (hparked.mp k.2).elim hb ht
  · obtain ⟨hcfs, -⟩ := decommission_fields (taken .p1 f s)
    have hanswer : answer .p1 .decommission (taken .p1 f s) = .accepted (be1 t.cfs.device.code) t :=
      if_pos ⟨hdevice.trans hservice, hparked.mpr hrest⟩
    rw [show t.cfs = _ from hcfs] at hanswer
    exact request_accepts hfree rfl hanswer
  · obtain ⟨hcfs, hrun, hlimits, hgate, hpresence, hqueue, hwmn, hptr, hA, hB⟩ := decommission_fields (taken .p1 f s)
    rw [taken_mvu] at hA hB
    refine ⟨congrArg Cfs.device hcfs, hrun, hlimits, hgate, hpresence .p1, hpresence .p2, ?_, ?_, ?_, fun m hm ho => ?_, hB⟩
    · exact hqueue.trans (by rw [taken_bsq])
    · exact hwmn.trans (taken_wmn ..)
    · exact hptr.trans (taken_ptr ..)
    · exact hA m hm (m.occupiesA_iff.mpr ho)

end Decommission

end Sys2Proof.Machine

/-! Proofs: the end of a warm reset: the entries that are placed again, the groups that are formed, and RESTART (R188). -/

namespace Sys2Proof.Machine

/-! ### The stages of a reset's end -/

/-- s with a reset's end as far as it has come: a wheel at rest, TRIPPED at PARK, and what the stages change. -/
def State.stage (s : State) (trial : Trial) (h : Hlu) (p : Pim) (f : Fbu) (l : Lkp) : State :=
  { s with
    mvu := { s.mvu with trial := trial }
    roc := { s.roc with rotation := if h.effective = .park then .tripped else .braked }
    hlu := h
    pim := p
    fbu := f
    lkp := l }

/-- t is a stage of the reset's end that begins in s. -/
def ResetStage (s t : State) : Prop :=
  ∃ trial h p f l, t = s.stage trial h p f l ∧ h.effective = highestLevel h.entries ∧
    (s.mvu.trial.status ≠ .measuring → trial = s.mvu.trial)

/-- The state in which the end of a warm reset begins: CONFIG, no move in progress, a braked wheel on which a trip changes the
rotation state alone, and an empty hold set. -/
structure ResetBegun (s : State) : Prop where
  config : s.cfs.device = .config
  moves : s.movesEnded
  braked : s.roc.rotation = .braked
  trip : tripRoc s.roc = { s.roc with rotation := .tripped }
  empty : s.hlu = .cold

section Stage

variable {s t : State} {trial : Trial} {h h' : Hlu} {p : Pim} {f : Fbu} {l l' : Lkp} {id : HoldId} {v : Level}

theorem ResetBegun.stage (k : ResetBegun s) : ResetStage s s := by
  refine ⟨s.mvu.trial, s.hlu, s.pim, s.fbu, s.lkp, ?_, by rw [k.empty]; rfl, fun _ => rfl⟩
  rw [State.stage, if_neg (by rw [k.empty]; exact Level.noConfusion), ← k.braked]

theorem stage_reform (hp : h'.effective = .park ↔ h.effective = .park) :
    { s.stage trial h p f l with hlu := h', lkp := l' } = s.stage trial h' p f l' := by
  simp only [State.stage, hp]

theorem ResetStage.of_parts {p' : Pim} {f' : Fbu} (k : ResetStage s t) :
    ResetStage s { t with pim := p', fbu := f', lkp := l' } := by
  obtain ⟨trial, h, p, f, l, rfl, heff, hidle⟩ := k
  exact ⟨trial, h, p', f', l', rfl, heff, hidle⟩

theorem ResetStage.notify (k : ResetStage s t) (n : Notice) : ResetStage s (notify n t) := k.of_parts

/-- Outside SERVICE an insertion makes the Boarding Sequencer judge nothing (R98). -/
theorem holdInsert_config (hc : s.cfs.device = .config) (hv : v ≠ .none) :
    holdInsert id v s = handToWheel s.hlu.effective (holdFormInsert id v s) := by
  have hform : (holdFormInsert id v s).cfs = s.cfs := by rw [holdFormInsert, holdForm_rest]
  rw [holdInsert_eq hv, bringHomeHandOver_leave (bringHome_config (by rw [handToWheel_cfs, hform]; exact hc))]

theorem holdInsert_config_hold (hc : s.cfs.device = .config) (hv : v ≠ .none) {i : HoldId} (hi : i ≠ id) :
    (holdInsert id v s).hold i = s.hold i := by
  rw [holdInsert_config hc hv, handToWheel_hold]
  exact (holdFormInsert_content id v s).2.1 i hi

/-- PARK stays the level when an entry joins (R138). -/
theorem park_of_joined {entries : List HoldEntry} {e : HoldEntry} (hp : highestLevel entries = .park) :
    highestLevel (entries ++ [e]) = .park := by
  have hjoin : highestLevel (entries ++ [e]) = (highestLevel entries).max e.level := List.foldl_append
  have hcode : Level.park.code ≤ ((highestLevel entries).max e.level).code := by
    rw [Level.code_max, hp]
    exact Nat.le_max_left ..
  rw [hjoin]
  revert hcode
  cases (highestLevel entries).max e.level <;> decide

theorem ResetStage.abort (k : ResetStage s t) (c : TrialAbort) : ResetStage s (abortTrial c t) := by
  obtain ⟨trial, h, p, f, l, rfl, heff, hidle⟩ := k
  rw [abortTrial_eq]
  refine ⟨_, h, p, f, _, rfl, heff, fun hn => ?_⟩
  have htrial := hidle hn
  exact (if_neg fun hm => hn ((congrArg Trial.status htrial).symm.trans hm)).trans htrial

theorem stage_movesEnded (b : ResetBegun s) : (s.stage trial h p f l).movesEnded := b.moves

/-- The hand-over of a level that has not fallen from PARK is a stage: the wheel trips exactly when it becomes PARK (R25). -/
theorem ResetBegun.handed (b : ResetBegun s) (hidle : s.mvu.trial.status ≠ .measuring → trial = s.mvu.trial)
    (heff : h'.effective = highestLevel h'.entries) (hstays : h.effective = .park → h'.effective = .park) :
    ResetStage s (handToWheel h.effective { s.stage trial h p f l with hlu := h', lkp := l' }) := by
  by_cases hsame : h'.effective = h.effective
  · rw [handToWheel_same hsame, stage_reform (by rw [hsame])]
    exact ⟨trial, h', p, f, l', rfl, heff, hidle⟩
  have hbelow : h.effective ≠ .park := fun hp => hsame ((hstays hp).trans hp.symm)
  have hlow (hn : h'.effective ≠ .park) : { s.stage trial h p f l with hlu := h', lkp := l' } = s.stage trial h' p f l' :=
    stage_reform ⟨fun k => absurd k hn, fun k => absurd k hbelow⟩
  by_cases hstop : h'.effective = .stop
  · rw [handToWheel_stop hstop fun k => hsame (hstop.trans k.symm), hlow (by rw [hstop]; exact Level.noConfusion)]
    exact ResetStage.abort ⟨trial, h', p, f, l', rfl, heff, hidle⟩ _
  by_cases hpark : h'.effective = .park
  · let y : State := { s.stage trial h p f l with hlu := h', lkp := l' }
    have hroc : y.roc = s.roc := by
      show { s.roc with rotation := if h.effective = .park then .tripped else .braked } = s.roc
      rw [if_neg hbelow, ← b.braked]
    obtain ⟨r, ns, htrip, -, hmove, -⟩ := trip_eq y
    have hr : r = { s.roc with rotation := if h'.effective = .park then .tripped else .braked } := by
      rw [hmove (by rw [hroc, b.braked]; exact Rotation.noConfusion), hroc, b.trip, if_pos hpark]
    rw [handToWheel_park hpark hbelow, htrip, hr]
    exact ResetStage.abort ⟨trial, h', p, f, l'.noticed ns, endMoves_ended (stage_movesEnded b) _, heff, hidle⟩ _
  · rw [handToWheel_low hstop hpark, hlow hpark]
    exact ⟨trial, h', p, f, l', rfl, heff, hidle⟩

/-- A new entry's insertion is a stage (R136). -/
theorem ResetStage.insert (k : ResetStage s t) (b : ResetBegun s) (hid : t.hold id = none) (hv : v ≠ .none) :
    ResetStage s (holdInsert id v t) := by
  obtain ⟨trial, h, p, f, l, rfl, heff, hidle⟩ := k
  obtain ⟨-, -, -, hformed⟩ := holdFormInsert_content id v (s.stage trial h p f l)
  have hentries : (holdFormInsert id v (s.stage trial h p f l)).hlu.entries =
      h.entries ++ [{ id := id, level := v, time := s.cfs.clock }] :=
    (holdForm_hlu ..).1.trans (placeEntry_new (hold_eq_none_iff.mp hid))
  rw [holdInsert_config (s := s.stage trial h p f l) b.config hv, holdFormInsert, holdForm_rest, ← holdFormInsert]
  refine b.handed hidle hformed fun hp => ?_
  rw [hformed, hentries]
  exact park_of_joined (heff ▸ hp)

theorem ResetStage.config (k : ResetStage s t) (b : ResetBegun s) : t.cfs.device = .config := by
  obtain ⟨_, _, _, _, _, rfl, -, -⟩ := k
  exact b.config

theorem ResetStage.cfs (k : ResetStage s t) : t.cfs = s.cfs := by
  obtain ⟨_, _, _, _, _, rfl, -, -⟩ := k
  rfl

theorem ResetStage.wmn (k : ResetStage s t) : t.wmn = s.wmn := by
  obtain ⟨_, _, _, _, _, rfl, -, -⟩ := k
  rfl

end Stage

/-! ### The wind's and the banks' entries (R131, R171) -/

section Entries

variable {s t : State}

theorem ResetStage.windHandOver (k : ResetStage s t) (b : ResetBegun s) (hid : t.hold .wind = none) (hv : s.wmn.level ≠ .calm)
    (p : Option WindLevel) (c : WindCause) :
    ResetStage s (windHandOver p c t) ∧
      ∀ i, (windHandOver p c t).hold i = if i = .wind then
        some { id := .wind, level := s.wmn.level.hold, time := s.cfs.clock } else t.hold i := by
  have hlevel : t.wmn.level ≠ .calm := by rw [k.wmn]; exact hv
  refine ⟨(k.insert b hid (WindLevel.hold_ne_none hlevel)).notify _, fun i => ?_⟩
  split
  · next hi => rw [hi, windHandOver_hold p c hlevel, k.wmn, k.cfs]
  · next hi => exact holdInsert_config_hold (k.config b) (WindLevel.hold_ne_none hlevel) hi

/-- The FAULT entry that a bank has once it has been placed again (R171). -/
def State.bankEntry (s : State) (b : BankId) : Option HoldEntry :=
  (s.bank b).hold.map fun a => { id := .fault b, level := a.level, time := s.cfs.clock }

theorem ResetStage.bankReinserted (k : ResetStage s t) (b : ResetBegun s) {x : BankId} (hid : t.hold (.fault x) = none)
    (hf : t.fbu = s.fbu) :
    ResetStage s (bankReinserted t x) ∧ (bankReinserted t x).fbu = s.fbu ∧ (bankReinserted t x).pim = t.pim ∧
      ∀ i, (bankReinserted t x).hold i = if i = .fault x then s.bankEntry x else t.hold i := by
  rw [State.bankEntry, ← bank_congr hf]
  cases hh : (t.bank x).hold with
  | none =>
    have hsame : Machine.bankReinserted t x = t := by simp only [Machine.bankReinserted, hh]
    rw [hsame]
    refine ⟨k, hf, rfl, fun i => ?_⟩
    split
    · next hi => rw [hi, hid, Option.map_none]
    · rfl
  | some a =>
    have hplace : Machine.bankReinserted t x = holdInsert (.fault x) a.level t := by simp only [Machine.bankReinserted, hh]
    have hc := holdInsert_content a.level_ne_none (id := .fault x) HoldId.noConfusion t
    rw [hplace]
    refine ⟨k.insert b hid a.level_ne_none, hc.1.fbu.trans hf, hc.1.pim, fun i => ?_⟩
    split
    · next hi => rw [hi, hc.2.2.1, k.cfs, Option.map_some]
    · next hi => exact holdInsert_config_hold (k.config b) a.level_ne_none hi

/-- The banks of a list are placed again one by one, each with its own entry (R171). -/
theorem ResetStage.reinserted (b : ResetBegun s) (l : List BankId) : l.Nodup → ∀ {t}, ResetStage s t →
    (∀ x ∈ l, t.hold (.fault x) = none) → t.fbu = s.fbu →
    ResetStage s (l.foldl Machine.bankReinserted t) ∧ (l.foldl Machine.bankReinserted t).fbu = s.fbu ∧
      (l.foldl Machine.bankReinserted t).pim = t.pim ∧
      (∀ x ∈ l, (l.foldl Machine.bankReinserted t).hold (.fault x) = s.bankEntry x) ∧
      ∀ i, (∀ x ∈ l, i ≠ .fault x) → (l.foldl Machine.bankReinserted t).hold i = t.hold i := by
  induction l with
  | nil => exact fun _ _ k _ hf => ⟨k, hf, rfl, fun _ h => absurd h List.not_mem_nil, fun _ _ => rfl⟩
  | cons y ys ih =>
    intro hnodup t k hnone hf
    obtain ⟨hy, hys⟩ := List.nodup_cons.mp hnodup
    obtain ⟨k', hf', hp', hhold⟩ := k.bankReinserted b (hnone y List.mem_cons_self) hf
    have hother (x : BankId) (hx : x ∈ ys) : (Machine.bankReinserted t y).hold (.fault x) = t.hold (.fault x) :=
      (hhold _).trans (if_neg fun h => hy (by rw [← HoldId.fault.inj h]; exact hx))
    obtain ⟨kt, hft, hpt, hin, hout⟩ := ih hys k' (fun x hx => (hother x hx).trans (hnone x (List.mem_cons_of_mem _ hx))) hf'
    refine ⟨kt, hft, hpt.trans hp', fun x hx => ?_, fun i hi => ?_⟩
    · rcases List.mem_cons.mp hx with rfl | hx
      · exact (hout _ fun z hz h => hy (by rw [HoldId.fault.inj h]; exact hz)).trans ((hhold _).trans (if_pos rfl))
      · exact hin x hx
    · exact (hout i fun x hx => hi x (List.mem_cons_of_mem _ hx)).trans
        ((hhold i).trans (if_neg (hi y List.mem_cons_self)))

end Entries

/-! ### The groups (R150) -/

section Groups

variable {s t : State} {g : GroupId}

/-- d is b but for what is logged and counted (R159, R161). -/
def Bank.LoggedTo (b d : Bank) : Prop :=
  d = { b with
    record := d.record
    overflow := d.overflow
    counter := d.counter
    thresholdReached := d.thresholdReached }

theorem Bank.loggedTo_iff {b d : Bank} : b.LoggedTo d ↔ d.hold = b.hold ∧ d.mask = b.mask ∧ d.threshold = b.threshold ∧
    d.noticeCorrectable = b.noticeCorrectable ∧ d.noticeDeferred = b.noticeDeferred := by
  constructor
  · intro h
    rw [LoggedTo] at h
    rw [h]
    exact ⟨rfl, rfl, rfl, rfl, rfl⟩
  · rintro ⟨hhold, hmask, hthreshold, hcorrectable, hdeferred⟩
    rw [LoggedTo, ← hhold, ← hmask, ← hthreshold, ← hcorrectable, ← hdeferred]

theorem Bank.LoggedTo.trans {b d e : Bank} (h : b.LoggedTo d) (k : d.LoggedTo e) : b.LoggedTo e := by
  obtain ⟨h1, h2, h3, h4, h5⟩ := loggedTo_iff.mp h
  obtain ⟨k1, k2, k3, k4, k5⟩ := loggedTo_iff.mp k
  exact loggedTo_iff.mpr ⟨k1.trans h1, k2.trans h2, k3.trans h3, k4.trans h4, k5.trans h5⟩

/-- What reports of INPUT_MISMATCH may change of the banks: what the platform bank has logged and counted. -/
def PlatformLogged (s t : State) : Prop :=
  ∀ b, (b ≠ .platform → t.bank b = s.bank b) ∧ (s.bank b).LoggedTo (t.bank b)

theorem PlatformLogged.of_fbu (h : t.fbu = s.fbu) : PlatformLogged s t := fun b => by
  rw [bank_congr h]
  exact ⟨fun _ => rfl, rfl⟩

theorem PlatformLogged.trans {u : State} (h : PlatformLogged s t) (k : PlatformLogged t u) : PlatformLogged s u := fun b =>
  ⟨fun hb => ((k b).1 hb).trans ((h b).1 hb), (h b).2.trans (k b).2⟩

theorem report_inputMismatch (k : Option Nat) (s : State) : ∃ f l,
    report .inputMismatch k s = { s with fbu := f, lkp := l } ∧ PlatformLogged s (report .inputMismatch k s) := by
  cases hm : (s.bank FaultCode.inputMismatch.bank).masks .inputMismatch with
  | true =>
    rw [report_masked k hm]
    exact ⟨s.fbu, s.lkp, rfl, .of_fbu rfl⟩
  | false =>
    obtain ⟨l, hn⟩ := reportNoticed_eq k .inputMismatch s
    have hreport : report .inputMismatch k s = { setBank .platform (s.reportedBank .inputMismatch k) s with lkp := l } :=
      (report_signal k hm rfl).trans hn
    obtain ⟨hmask, hthreshold, hcorrectable, hdeferred⟩ := reportedBank_settings .inputMismatch s k
    refine ⟨_, l, hreport, fun b => ?_⟩
    have hbank : (report .inputMismatch k s).bank b = (setBank .platform (s.reportedBank .inputMismatch k) s).bank b :=
      bank_congr (by rw [hreport]) b
    rw [hbank]
    by_cases hb : b = .platform
    · subst hb
      rw [setBank_bank_self]
      exact ⟨fun h => absurd rfl h, Bank.loggedTo_iff.mpr
        ⟨reportedBank_hold_of_none (c := .inputMismatch) k rfl, hmask, hthreshold, hcorrectable, hdeferred⟩⟩
    · rw [setBank_bank_other s hb]
      exact ⟨fun _ => rfl, rfl⟩

/-- A group with its match state as the end of a reset forms it (R150). -/
def InputGroup.resetFormed (v : InputGroup) (m : Bool) : InputGroup := { v with isMatch := m, factor := !m }

theorem setGroup_setGroup (v w : InputGroup) : setGroup g w (setGroup g v s) = setGroup g w s := by cases g <;> rfl

/-- The match state of a group at the end of a reset: a departure alone is reported (R146, R150). -/
theorem formMatch_reset (g : GroupId) (t : State) :
    let v := t.group g
    let m := v.matchOf (t.filteredMask g)
    let x := formMatch g .reset (setGroup g { v with isMatch := true, factor := false } t)
    (∃ f l, x = { setGroup g (v.resetFormed m) t with fbu := f, lkp := l }) ∧ PlatformLogged t x ∧
      (m = true → x.fbu = t.fbu) := by
  intro v m x
  let w := setGroup g { v with isMatch := true, factor := false } t
  have hself : w.group g = { v with isMatch := true, factor := false } := setGroup_group_self ..
  have hmask : w.filteredMask g = t.filteredMask g := filteredMask_congr (setGroup_inputs ..) g
  have hmatch : (w.group g).matchOf (w.filteredMask g) = m := by rw [hself, hmask]; rfl
  cases hm : m with
  | true =>
    have hx : x = setGroup g (v.resetFormed true) t := by
      show formMatch g .reset w = _
      rw [formMatch, hmatch, if_pos hm, hself]
      exact setGroup_setGroup ..
    rw [hx]
    exact ⟨⟨t.fbu, t.lkp, rfl⟩, .of_fbu rfl, fun _ => rfl⟩
  | false =>
    have hx : x = groupDeparts g .reset w := by
      show formMatch g .reset w = _
      rw [formMatch, hmatch, if_neg (by rw [hm]; nofun), if_pos (by rw [hself])]
    have hform : setGroup g { w.group g with isMatch := false, factor := true } w = setGroup g (v.resetFormed false) t := by
      rw [hself]
      exact setGroup_setGroup ..
    have hsent : ∃ l, x = report .inputMismatch (some g.number) { setGroup g (v.resetFormed false) t with lkp := l } := by
      rw [hx, groupDeparts, hform]
      split
      · exact ⟨_, rfl⟩
      · exact ⟨_, rfl⟩
    obtain ⟨l, hl⟩ := hsent
    obtain ⟨f, l', hreport, hlogged⟩ := report_inputMismatch (some g.number) { setGroup g (v.resetFormed false) t with lkp := l }
    rw [hl]
    exact ⟨⟨f, l', hreport⟩, (PlatformLogged.of_fbu rfl).trans hlogged, nofun⟩

/-- The end of a reset at one group: its match state and factor flag afresh, its entry placed in MISMATCH, every other entry
as it was (R147, R150). -/
theorem ResetStage.groupEnd (k : ResetStage s t) (b : ResetBegun s) (hid : t.hold (.inputs g) = none) :
    let v := t.group g
    let m := v.matchOf (t.filteredMask g)
    let u := groupResetEnd g t
    ResetStage s u ∧ u.pim = (setGroup g (v.resetFormed m) t).pim ∧ PlatformLogged t u ∧ (m = true → u.fbu = t.fbu) ∧
      ∀ i, u.hold i = if i = .inputs g then
        (if v.level ≠ .none ∧ m = false then some { id := .inputs g, level := v.level, time := s.cfs.clock } else none)
        else t.hold i := by
  intro v m u
  obtain ⟨⟨f, l, hx⟩, hlogged, hfbu⟩ := formMatch_reset g t
  let x := formMatch g .reset (setGroup g { v with isMatch := true, factor := false } t)
  have kx : ResetStage s x := by
    show ResetStage s (formMatch g .reset (setGroup g { v with isMatch := true, factor := false } t))
    rw [hx]
    exact k.of_parts
  have hxhold (i : HoldId) : x.hold i = t.hold i := by
    show (formMatch g .reset (setGroup g { v with isMatch := true, factor := false } t)).hold i = _
    rw [hx]
    rfl
  have hpim : x.pim = (setGroup g (v.resetFormed m) t).pim := (congrArg State.pim hx).trans rfl
  have hgroup : x.group g = v.resetFormed m := by
    refine (group_congr (s := setGroup g (v.resetFormed m) t) ?_ g).trans (setGroup_group_self ..)
    exact hpim
  have hcalls : (x.group g).calls = true ↔ v.level ≠ .none ∧ m = false := by
    rw [hgroup]
    simp only [InputGroup.calls, InputGroup.resetFormed, Bool.or_self, Bool.and_eq_true, bne_iff_ne, Bool.not_eq_true']
  have hlevel : (x.group g).level = v.level := by rw [hgroup]; rfl
  have hu : u = judgeInputs g x := rfl
  by_cases hc : v.level ≠ .none ∧ m = false
  · have hins : u = holdInsert (.inputs g) v.level x := by
      rw [hu, judgeInputs, if_pos (hcalls.mpr hc), hlevel]
      simp only [(hxhold _).trans hid]
    have hcontent := holdInsert_content hc.1 (id := .inputs g) HoldId.noConfusion x
    rw [hins]
    refine ⟨kx.insert b ((hxhold _).trans hid) hc.1, hcontent.1.pim.trans hpim,
      hlogged.trans (.of_fbu hcontent.1.fbu), fun h => hcontent.1.fbu.trans (hfbu h), fun i => ?_⟩
    rw [if_pos hc]
    split
    · next hi => rw [hi, hcontent.2.2.1, kx.cfs]
    · next hi => exact (holdInsert_config_hold (kx.config b) hc.1 hi).trans (hxhold i)
  · have hsame : u = x := by
      rw [hu, judgeInputs, if_neg (mt hcalls.mp hc), holdRemove_absent ((hxhold _).trans hid)]
    rw [hsame]
    refine ⟨kx, hpim, hlogged, hfbu, fun i => ?_⟩
    rw [if_neg hc, hxhold]
    split
    · next hi => rw [hi, hid]
    · rfl

theorem group_of_pim {v : InputGroup} (h : t.pim = (setGroup g v s).pim) (x : GroupId) :
    t.group x = if x = g then v else s.group x := by
  rw [group_congr h]
  split
  · next hx => rw [hx, setGroup_group_self]
  · next hx => rw [setGroup_group_other s hx]

/-- The end of a reset at the Platform Input Monitor (R144, R150). -/
theorem ResetStage.inputsEnd (k : ResetStage s t) (b : ResetBegun s) (hid : ∀ g, t.hold (.inputs g) = none) :
    let u := inputsResetEnd t
    let m (g : GroupId) := (t.group g).matchOf (u.filteredMask g)
    ResetStage s u ∧ u.pim.inputs = t.pim.inputs.map Input.taken ∧ (∀ g, u.group g = (t.group g).resetFormed (m g)) ∧
      PlatformLogged t u ∧ ((∀ g, m g = true) → u.fbu = t.fbu) ∧
      (∀ g, u.hold (.inputs g) = if (t.group g).level ≠ .none ∧ m g = false then
        some { id := .inputs g, level := (t.group g).level, time := s.cfs.clock } else none) ∧
      ∀ i, (∀ g, i ≠ .inputs g) → u.hold i = t.hold i := by
  let y : State := { t with pim := { t.pim with inputs := t.pim.inputs.map Input.taken } }
  let z := groupResetEnd .g0 y
  have hy (g : GroupId) : y.group g = t.group g := by cases g <;> rfl
  have ky : ResetStage s y := k.of_parts
  obtain ⟨kz, hpz, hlz, hfz, hhz⟩ := ky.groupEnd b (g := .g0) (hid .g0)
  have hgz := group_of_pim hpz
  have hinputs : z.pim.inputs = y.pim.inputs := (congrArg Pim.inputs hpz).trans (setGroup_inputs ..)
  have hz1 : z.group .g1 = t.group .g1 := (hgz .g1).trans (hy .g1)
  obtain ⟨ku, hpu, hlu, hfu, hhu⟩ := kz.groupEnd b (g := .g1) ((hhz _).trans (hid .g1))
  have hgu := group_of_pim hpu
  intro u m
  have hinputs' : u.pim.inputs = y.pim.inputs := ((congrArg Pim.inputs hpu).trans (setGroup_inputs ..)).trans hinputs
  have hm0 : (y.group .g0).matchOf (y.filteredMask .g0) = m .g0 := by rw [hy, ← filteredMask_congr hinputs']
  have hm1 : (z.group .g1).matchOf (z.filteredMask .g1) = m .g1 := by
    rw [hz1, filteredMask_congr hinputs, ← filteredMask_congr hinputs']
  rw [hm0] at hgz hfz hhz
  rw [hm1] at hgu hfu hhu
  rw [hy .g0] at hgz hhz
  rw [hz1] at hgu hhu
  refine ⟨ku, hinputs', fun g => ?_, ((PlatformLogged.of_fbu rfl).trans hlz).trans hlu,
    fun hm => (hfu (hm .g1)).trans (hfz (hm .g0)), fun g => ?_, fun i hi => ?_⟩
  · cases g with
    | g0 => exact (hgu .g0).trans (hgz .g0)
    | g1 => exact hgu .g1
  · cases g with
    | g0 => exact (hhu (.inputs .g0)).trans (hhz (.inputs .g0))
    | g1 => exact hhu (.inputs .g1)
  · exact ((hhu i).trans (if_neg (hi .g1))).trans ((hhz i).trans (if_neg (hi .g0)))

end Groups

end Sys2Proof.Machine

/-! Proofs: RESTART (R188). -/

namespace Sys2Proof.Machine

section WarmReset

variable {s : State}

/-- The state in which the end of a warm reset of s begins. -/
def State.resetBegun (s : State) : State := brakeWaitStarts (warmResetHeld s)

theorem warmReset_eq (s : State) :
    warmReset s = inputsResetEnd (allBanks.foldl bankReinserted (windHandOver none .reset s.resetBegun)) := rfl

theorem resetBegun_roc (s : State) : s.resetBegun.roc = { s.roc.restarted s.cfs.speeds.aCfg with
    brakeConfirmed := s.roc.brakeSet, brakeSetTimer := if s.roc.brakeSet then none else some 0 } := brakeSetStart_eq _

theorem resetBegun_begun (s : State) : ResetBegun s.resetBegun where
  config := rfl
  moves := ⟨nofun, nofun⟩
  braked := by rw [resetBegun_roc]; rfl
  trip := by rw [resetBegun_roc]; rfl
  empty := rfl

/-- The wind level that a reset leaves (R134, R135). -/
theorem max_gusty (v : WindLevel) : v.max .gusty = if v.code < 2 then .gusty else v := by cases v <;> rfl

theorem resetBegun_level (s : State) : s.resetBegun.wmn.level = if s.wmn.level.code < 2 then .gusty else s.wmn.level :=
  max_gusty _

theorem resetBegun_bank (s : State) (b : BankId) : s.resetBegun.bank b = (s.bank b).restarted := by cases b <;> rfl

theorem resetBegun_group (s : State) (g : GroupId) : s.resetBegun.group g = s.group g := by cases g <;> rfl

theorem resetBegun_bankEntry (s : State) (b : BankId) : s.resetBegun.bankEntry b = s.bankEntry b := by
  rw [State.bankEntry, resetBegun_bank]
  rfl

/-- The warm reset stage by stage: what each block of the end leaves, and the hold set (R188; log 18). -/
theorem warmReset_stages (s : State) :
    let b := s.resetBegun
    let t := warmReset s
    let m (g : GroupId) := (s.group g).matchOf (t.filteredMask g)
    ResetStage b t ∧ t.pim.inputs = s.pim.inputs.map Input.taken ∧ (∀ g, t.group g = (s.group g).resetFormed (m g)) ∧
      PlatformLogged b t ∧ ((∀ g, m g = true) → t.fbu = b.fbu) ∧
      t.hold .wind = some { id := .wind, level := b.wmn.level.hold, time := s.cfs.clock } ∧
      (∀ x, t.hold (.fault x) = s.bankEntry x) ∧
      (∀ g, t.hold (.inputs g) = if (s.group g).level ≠ .none ∧ m g = false then
        some { id := .inputs g, level := (s.group g).level, time := s.cfs.clock } else none) ∧
      ∀ i, i ≠ .wind → (∀ x, i ≠ .fault x) → (∀ g, i ≠ .inputs g) → t.hold i = none := by
  have hb := resetBegun_begun s
  have hlevel : s.resetBegun.wmn.level ≠ .calm := by
    rw [resetBegun_level]
    cases s.wmn.level <;> decide
  obtain ⟨kw, hw⟩ := hb.stage.windHandOver hb rfl hlevel none .reset
  have howned := windHandOver_entryOf none .reset s.resetBegun
  obtain ⟨kf, hffbu, hfpim, hbanks, hfother⟩ := ResetStage.reinserted hb allBanks (by decide) kw
    (fun x _ => (hw _).trans (if_neg HoldId.noConfusion)) howned.fbu
  let v := allBanks.foldl bankReinserted (windHandOver none .reset s.resetBegun)
  have hrest (i : HoldId) (hi : i ≠ .wind) (hx : ∀ x, i ≠ .fault x) : v.hold i = none :=
    (hfother i fun x _ => hx x).trans ((hw i).trans (if_neg hi))
  have hgroup (g : GroupId) : (allBanks.foldl bankReinserted (windHandOver none .reset s.resetBegun)).group g = s.group g :=
    (group_congr (hfpim.trans howned.pim) g).trans (resetBegun_group s g)
  obtain ⟨kt, hinputs, hgroups, hlogged, hfbu, hgrouphold, hother⟩ :=
    kf.inputsEnd hb fun g => hrest _ HoldId.noConfusion fun _ => HoldId.noConfusion
  intro b t m
  simp only [hgroup] at hgroups hfbu hgrouphold
  refine ⟨kt, hinputs.trans (congrArg _ (congrArg Pim.inputs (hfpim.trans howned.pim))), hgroups,
    (PlatformLogged.of_fbu hffbu).trans hlogged, fun hm => (hfbu hm).trans hffbu, ?_, fun x => ?_, hgrouphold,
    fun i hi hx hg => (hother i hg).trans (hrest i hi hx)⟩
  · exact (hother _ fun _ => HoldId.noConfusion).trans
      ((hfother _ fun _ _ => HoldId.noConfusion).trans ((hw _).trans (if_pos rfl)))
  · exact (hother _ fun _ => HoldId.noConfusion).trans
      ((hbanks x (by cases x <;> decide)).trans (resetBegun_bankEntry s x))

/-- A notice never clears the notice-lost flag (R177). -/
theorem noticed_lost (ns : List Notice) {q : PortState} (h : q.noticeLost = true) :
    (ns.foldl (fun q n => portNotice n q) q).noticeLost = true := by
  induction ns generalizing q with
  | nil => exact h
  | cons n ns ih =>
    refine ih ?_
    rcases portNotice_cases n q with ⟨-, -, -, e⟩ | ⟨-, ⟨-, e⟩ | ⟨-, e⟩⟩
    · exact (congrArg PortState.noticeLost e).trans h
    · exact (congrArg PortState.noticeLost e).trans h
    · exact congrArg PortState.noticeLost e

theorem warmResetHeld_port (s : State) (p : Port) :
    (warmResetHeld s).port p = (s.port p).restarted (if p = .p1 then (s.port p).reply else none) := by cases p <;> rfl

/-- A port after the warm reset: its frames and its presence timer gone, and the loss of anything that waited noted (R154,
R178). -/
theorem warmReset_port (s : State) (p : Port) :
    let q := (warmReset s).port p
    q.receiver = .hunting ∧ q.fifo = [] ∧ q.presence = none ∧ q.presenceTime = (s.port p).presenceTime ∧
      q.presenceLevel = (s.port p).presenceLevel ∧ (p = .p2 → q.reply = none) ∧
      ((s.port p).noticeLost = true ∨ (s.port p).outbox ≠ [] ∨ p = .p2 ∧ (s.port p).reply.isSome = true →
        q.noticeLost = true) := by
  obtain ⟨ns, hns⟩ := (warmReset_effect s).ports
  have hport := noticed_port hns p
  obtain ⟨x, o, l, hq⟩ := (warmReset_effect s).port_eq p
  have hlost (h : ((warmResetHeld s).port p).noticeLost = true) : ((warmReset s).port p).noticeLost = true := by
    rw [hport]
    exact noticed_lost ns h
  rw [warmResetHeld_port] at hq hlost
  refine ⟨congrArg PortState.receiver hq, congrArg PortState.fifo hq, congrArg PortState.presence hq,
    (congrArg PortState.presenceTime hq).trans rfl, (congrArg PortState.presenceLevel hq).trans rfl, fun h2 => ?_, fun h => hlost ?_⟩
  · exact (congrArg PortState.reply hq).trans (if_neg (by rw [h2]; nofun))
  · show ((s.port p).noticeLost || !(s.port p).outbox.isEmpty || ((s.port p).reply.isSome &&
      (if p = .p1 then (s.port p).reply else none).isNone)) = true
    rcases h with h | h | ⟨rfl, h⟩
    · rw [h, Bool.true_or, Bool.true_or]
    · rw [show (s.port p).outbox.isEmpty = false by simpa using h, Bool.not_false, Bool.or_true, Bool.true_or]
    · rw [h]
      exact Bool.or_true _

/-- Taking a request touches, of the ports, the presence timer and the reply slot of its own (R175). -/
theorem taken_ports (p q : Port) (f : Frame) (s : State) : ∃ x l r,
    (taken p f s).port q = { s.port q with presence := x, lateExpiry := l, reply := r } ∧ (q ≠ p → r = (s.port q).reply) := by
  obtain ⟨x, l, hx⟩ := heard_port p s
  by_cases hq : q = p
  · subst hq
    refine ⟨x, l, some (refusalFrame f .unknownKind 0), ?_, fun h => absurd rfl h⟩
    rw [taken, setPort_port_self, hx]
  · refine ⟨(s.port q).presence, (s.port q).lateExpiry, (s.port q).reply, ?_, fun _ => rfl⟩
    rw [taken, setPort_port_other (h := hq), heard]
    split
    · rw [setPort_port_other (h := hq)]
    · rfl

/-- Every block after the warm reset, but for the ports, which no block's value depends on (R188). -/
theorem warmReset_blocks (s : State) (l : Lkp) :
    let t := warmReset { s with lkp := l }
    t.cfs = { s.cfs with device := .config } ∧ t.time = { s.time with control := 0, sample := 0 } ∧ t.ptr = s.ptr.restarted ∧
      t.roc = { s.roc.restarted s.cfs.speeds.aCfg with
        rotation := if t.hlu.effective = .park then .tripped else .braked
        brakeConfirmed := s.roc.brakeSet
        brakeSetTimer := if s.roc.brakeSet then none else some 0 } ∧
      (s.mvu.trial.status ≠ .measuring → t.mvu = s.mvu.restarted) ∧
      t.mvu.slotA = none ∧ t.mvu.slotB = none ∧ t.mvu.nextNumber = s.mvu.nextNumber ∧
      t.cru = Cru.reset s.cfs.geometry.n ∧ t.bsq = s.bsq.restarted ∧ t.wmn = s.wmn.restarted ∧
      t.hlu.effective = highestLevel t.hlu.entries := by
  obtain ⟨⟨trial, h, p, fbu, v, hstage, heff, hidle⟩, -⟩ := warmReset_stages { s with lkp := l }
  intro t
  have hroc := resetBegun_roc { s with lkp := l }
  rw [show t = _ from hstage]
  refine ⟨rfl, rfl, rfl, ?_, fun hn => ?_, rfl, rfl, rfl, rfl, rfl, rfl, heff⟩
  · rw [State.stage, hroc]
  · rw [State.stage, hidle hn]
    rfl

/-- Settles O42: the state that the warm reset holds has each block's own values, and its end places the entries and forms the
groups stage by stage. -/
theorem restartPerformsWarmReset : Obligations.RestartPerformsWarmReset := by
  unfold Obligations.RestartPerformsWarmReset
  intro tag s hfree f t level departed
  let u := taken .p1 f s
  have hparked : u.wheelParked = true ↔ s.roc.rotation = .braked ∨ s.roc.rotation = .tripped := by
    rw [wheelParked_iff, taken_roc]
  have htaken : u = { s with lkp := u.lkp } := by
    obtain ⟨q, hq⟩ := taken_eq_setPort .p1 f s
    rw [show u = _ from hq]
    rfl
  refine ⟨fun hb ht => request_refuses hfree rfl (if_neg fun k => (hparked.mp k).elim hb ht), fun hrest =>
    ⟨request_accepts hfree rfl (if_pos (hparked.mpr hrest)), ?_⟩⟩
  have hblocks := warmReset_blocks s u.lkp
  rw [← htaken] at hblocks
  obtain ⟨hcfs, htime, hptr, hroc, hmvu, hA, hB, hnumber, hcru, hbsq, hwmn, heff⟩ := hblocks
  obtain ⟨-, hinputs, hgroups, hlogged, hfbu, hwind, hbanks, hinputsHold, hnone⟩ := warmReset_stages u
  have hmatch (g : GroupId) : (u.group g).matchOf (t.filteredMask g) = !departed g := by
    rw [matchOf_eq, taken_group]
    simp only [departed, ne_eq, decide_not, Bool.not_not]
  have hclock : u.cfs.clock = s.cfs.clock := congrArg Cfs.clock (taken_cfs .p1 f s)
  have hlevel : u.resetBegun.wmn.level = level := by rw [resetBegun_level, taken_wmn]
  have hkept (b : BankId) : u.resetBegun.bank b = (s.bank b).restarted := by rw [resetBegun_bank, taken_bank]
  refine ⟨hcfs, htime, hptr, hroc, hmvu, hA, hB, hnumber, hcru, hbsq, ?_, fun ch => ?_, ?_, fun g => ?_, fun b => ⟨fun h => ?_, ?_⟩,
    ?_, fun b => ?_, fun g => ?_, hnone, heff, fun p => ?_, ?_⟩
  · rw [show t.wmn = _ from hwmn, Wmn.restarted, Wmn.resetEnd, max_gusty]
    rfl
  · rw [State.channel, show t.wmn = _ from hwmn]
    cases ch <;> rfl
  · exact hinputs.trans (by rw [taken_pim]; rfl)
  · refine (hgroups g).trans ?_
    dsimp only
    rw [hmatch, taken_group, InputGroup.resetFormed, Bool.not_not]
  · refine Eq.trans ?_ (hkept b)
    rcases h with h | h
    · exact (hlogged b).1 h
    · exact bank_congr (hfbu fun g => (hmatch g).trans (by rw [h g]; rfl)) b
  · have hbank := (hlogged b).2
    rw [hkept] at hbank
    exact hbank
  · rw [← hlevel, ← hclock]
    exact hwind
  · exact (hbanks b).trans (by rw [State.bankEntry, taken_bank, hclock])
  · have hgroup : u.group g = s.group g := taken_group .p1 f s g
    have hdeparted : (u.group g).matchOf (t.filteredMask g) = false ↔ departed g = true := by
      rw [hmatch, Bool.not_eq_false']
    refine (hinputsHold g).trans (if_iff_congr (and_congr (by rw [hgroup]) hdeparted) ?_ rfl)
    rw [hgroup, hclock]
  · obtain ⟨hreceiver, hfifo, hpresence, hptime, hplevel, -, hlost⟩ := warmReset_port u p
    obtain ⟨x, l, r, hport, hreply⟩ := taken_ports .p1 p f s
    rw [hport] at hptime hplevel hlost
    refine ⟨hreceiver, hfifo, hpresence, hptime, hplevel, fun h => hlost ?_⟩
    refine h.imp_right (Or.imp_right fun hr => ?_)
    cases p with
    | p1 => exact absurd hr (by rw [hfree.reply]; nofun)
    | p2 => exact ⟨rfl, by rw [hreply nofun]; exact hr⟩
  · exact (warmReset_port u .p2).2.2.2.2.2.1 rfl

end WarmReset

end Sys2Proof.Machine

/-! Proofs: what the Boarding Sequencer's work on one cabin reaches, said once per operation (chapter 5). -/

namespace Sys2Proof.Machine

/-! ### What accompanies a change of a cabin -/

/-- The DOOR entries of a limit-point list. -/
def doorLimits (l : List LimitPoint) : List LimitPoint := l.filter LimitPoint.isDoor

/-- t comes from s by what accompanies a change of a cabin: moves, the SLOW target, the limit points that are no door's, the
hold set with its hand-overs, and notices. -/
def Beside (s t : State) : Prop :=
  ∃ m r b k x h l,
    t = { s with
      mvu := m
      roc := r
      bsq := { s.bsq with boardingMove := b, slowTarget := k, slowCrossed := x }
      hlu := h
      lkp := l } ∧
    doorLimits r.limits = doorLimits s.roc.limits

section Beside

variable {s t u : State}

theorem isDoor_eq (e : LimitPoint) : e.isDoor = e.origin.isDoor := by
  unfold LimitPoint.isDoor LimitOrigin.isDoor
  cases e.origin <;> rfl

theorem doorLimits_otherLimits (l : List LimitPoint) : doorLimits (otherLimits l) = doorLimits l := by
  rw [doorLimits, otherLimits, List.filter_filter, doorLimits]
  refine List.filter_congr fun e _ => ?_
  unfold LimitPoint.isDoor
  cases e.origin <;> rfl

theorem find_door (k : Nat) (l : List LimitPoint) :
    (l.find? fun e => e.origin == .door k) = (doorLimits l).find? fun e => e.origin == .door k := by
  rw [doorLimits, List.find?_filter]
  refine find_of_agree fun e _ => ?_
  rw [isDoor_eq]
  by_cases he : e.origin = .door k
  · simp [he, LimitOrigin.isDoor]
  · simp [he]

theorem doorLimits_filter {o : LimitOrigin} (ho : o.isDoor = false) (l : List LimitPoint) :
    doorLimits (l.filter fun e => e.origin != o) = doorLimits l := by
  rw [doorLimits, List.filter_filter, doorLimits]
  refine List.filter_congr fun e _ => ?_
  unfold LimitPoint.isDoor
  cases o with
  | door k => cases ho
  | move => cases e.origin <;> rfl
  | slow => cases e.origin <;> rfl

theorem doorLimits_placeLimit {e : LimitPoint} (he : e.origin.isDoor = false) (l : List LimitPoint) :
    doorLimits (placeLimit e l) = doorLimits l := by
  have hdrop (x : LimitPoint) (hx : x.origin.isDoor = false) (xs : List LimitPoint) : doorLimits (x :: xs) = doorLimits xs :=
    List.filter_cons_of_neg (by rw [isDoor_eq, hx]; nofun)
  induction l with
  | nil => exact hdrop e he []
  | cons x xs ih =>
    rw [placeLimit]
    split
    · next hx => rw [hdrop e he, hdrop x (by rw [hx]; exact he)]
    · rw [doorLimits, doorLimits, List.filter_cons, List.filter_cons, ← doorLimits, ← doorLimits, ih]

theorem Beside.refl (s : State) : Beside s s := ⟨s.mvu, s.roc, s.bsq.boardingMove, s.bsq.slowTarget, s.bsq.slowCrossed, s.hlu, s.lkp, rfl, rfl⟩

theorem Beside.trans (h : Beside s t) (k : Beside t u) : Beside s u := by
  obtain ⟨_, _, _, _, _, _, _, rfl, hl⟩ := h
  obtain ⟨m, r, b, x, y, v, l, rfl, hl'⟩ := k
  exact ⟨m, r, b, x, y, v, l, rfl, hl'.trans hl⟩

theorem Beside.ite {c : Prop} [Decidable c] (h : Beside s t) (k : Beside s u) : Beside s (if c then t else u) := by
  split
  · exact h
  · exact k

theorem HoldChanged.beside (h : HoldChanged s t) : Beside s t := by
  obtain ⟨m, r, b, v, l, rfl, hl⟩ := h
  refine ⟨m, r, b, s.bsq.slowTarget, s.bsq.slowCrossed, v, l, rfl, ?_⟩
  rw [← doorLimits_otherLimits, hl, doorLimits_otherLimits]

theorem Beside.ptr (h : Beside s t) : t.ptr = s.ptr := by obtain ⟨_, _, _, _, _, _, _, rfl, -⟩ := h; rfl

theorem Beside.cru (h : Beside s t) : t.cru = s.cru := by obtain ⟨_, _, _, _, _, _, _, rfl, -⟩ := h; rfl

theorem Beside.wmn (h : Beside s t) : t.wmn = s.wmn := by obtain ⟨_, _, _, _, _, _, _, rfl, -⟩ := h; rfl

theorem Beside.pim (h : Beside s t) : t.pim = s.pim := by obtain ⟨_, _, _, _, _, _, _, rfl, -⟩ := h; rfl

theorem Beside.fbu (h : Beside s t) : t.fbu = s.fbu := by obtain ⟨_, _, _, _, _, _, _, rfl, -⟩ := h; rfl

theorem Beside.cfs (h : Beside s t) : t.cfs = s.cfs := by obtain ⟨_, _, _, _, _, _, _, rfl, -⟩ := h; rfl

theorem Beside.time (h : Beside s t) : t.time = s.time := by obtain ⟨_, _, _, _, _, _, _, rfl, -⟩ := h; rfl

theorem Beside.cabins (h : Beside s t) : t.bsq.cabins = s.bsq.cabins := by obtain ⟨_, _, _, _, _, _, _, rfl, -⟩ := h; rfl

theorem Beside.queue (h : Beside s t) : t.bsq.queue = s.bsq.queue := by obtain ⟨_, _, _, _, _, _, _, rfl, -⟩ := h; rfl

theorem Beside.gate (h : Beside s t) : t.bsq.gate = s.bsq.gate := by obtain ⟨_, _, _, _, _, _, _, rfl, -⟩ := h; rfl

theorem Beside.cabin (h : Beside s t) (k : Nat) : t.cabin k = s.cabin k := congrArg (fun l => nth l k Cabin.cold) h.cabins

theorem Beside.node (h : Beside s t) (k : Nat) : t.node k = s.node k := congrArg (fun c : Cru => nth c.nodes k Node.cold) h.cru

theorem Beside.limit (h : Beside s t) (k : Nat) : t.limit (.door k) = s.limit (.door k) := by
  obtain ⟨_, _, _, _, _, _, _, rfl, hl⟩ := h
  exact (find_door k _).trans ((congrArg _ hl).trans (find_door k _).symm)

theorem Beside.hasDoor (h : Beside s t) (k : Nat) : t.hasDoor k = s.hasDoor k := congrArg Option.isSome (h.limit k)

theorem Beside.doorCount (h : Beside s t) : t.doorCount = s.doorCount := by
  obtain ⟨_, _, _, _, _, _, _, rfl, hl⟩ := h
  exact congrArg List.length hl

theorem notify_beside (n : Notice) (s : State) : Beside s (notify n s) := (notify_changed n s).beside

theorem limitInsert_beside {o : LimitOrigin} (ho : o.isDoor = false) (line v : Nat) (m : Bool) (r : Int) (s : State) :
    Beside s (limitInsert o line v m r s) :=
  ⟨_, _, _, _, _, _, _, rfl, doorLimits_placeLimit ho _⟩

theorem limitRemove_beside {o : LimitOrigin} (ho : o.isDoor = false) (s : State) : Beside s (limitRemove o s) :=
  ⟨_, _, _, _, _, _, _, rfl, doorLimits_filter ho _⟩

theorem slowJudge_beside (s : State) : Beside s (slowJudge s) := by
  unfold slowJudge slowInsert
  repeat' split
  · exact .refl s
  · exact .refl s
  · exact .refl s
  · exact limitInsert_beside rfl ..
  · exact limitRemove_beside rfl s

theorem slowChoose_beside (s : State) : Beside s (slowChoose s) := by
  have hset (k : Option Nat) : Beside s { s with bsq := { s.bsq with slowTarget := k, slowCrossed := false } } :=
    ⟨_, _, _, _, _, _, _, rfl, rfl⟩
  unfold slowChoose slowInsert
  dsimp only
  split
  · exact (hset _).trans (limitRemove_beside rfl _)
  · exact (hset _).trans (.ite (limitInsert_beside rfl ..) (limitRemove_beside rfl _))

theorem settleCabins_beside (before s : State) : Beside s (settleCabins before s) := by
  unfold settleCabins
  exact (slowJudge_beside s).trans (.ite (.refl _) (bringHomeJudge_changed _).beside)

theorem abortTrial_beside (c : TrialAbort) (s : State) : Beside s (abortTrial c s) := by
  rw [abortTrial_eq]
  exact ⟨_, _, _, _, _, _, _, rfl, rfl⟩

theorem moveChanged_beside (sl : Slot) (m : Option Move) (s : State) : Beside s (moveChanged sl m s) := by
  cases m <;> exact ⟨_, _, _, _, _, _, _, rfl, rfl⟩

theorem activate_beside (m : Move) (s : State) : Beside s (activate m s) := by
  unfold activate
  exact (limitInsert_beside rfl ..).trans (moveChanged_beside ..)

theorem promote_beside (s : State) : Beside s (promote s) := by
  unfold promote
  split
  · exact .refl s
  · exact .ite ((activate_beside ..).trans (moveChanged_beside ..)) (.refl s)

theorem finishA_beside (m : Move) (s : State) : Beside s (finishA m s) :=
  ((limitRemove_beside rfl s).trans (moveChanged_beside ..)).trans (promote_beside _)

theorem cancelMove_beside (n : Nat) (s : State) : Beside s ((cancelMove n s).state s) := by
  unfold cancelMove
  repeat' split
  · exact finishA_beside ..
  · exact .refl s
  · rw [MoveAnswer.state]
    exact moveChanged_beside ..
  · exact .refl s
  · exact .refl s

theorem resumeMove_beside (n : Nat) (s : State) : Beside s ((resumeMove n s).state s) := by
  unfold resumeMove
  repeat' split
  · exact finishA_beside ..
  · exact .refl s
  · exact .refl s
  · exact .refl s

theorem giveUpMove_beside (k : Nat) (s : State) : Beside s (giveUpMove k s) := by
  unfold giveUpMove
  split
  · exact .refl s
  · exact .ite (.ite (resumeMove_beside ..) (cancelMove_beside ..)) (.refl s)

theorem submitMove_beside {kind : MoveKind} {origin : MoveOrigin} {sl : Slot} {m : Move} (h : submitMove kind origin s = .accepted sl m t) :
    Beside s t := by
  have hcount : Beside s s.numberTaken := ⟨_, _, _, _, _, _, _, rfl, rfl⟩
  unfold submitMove at h
  dsimp only at h
  repeat' split at h
  all_goals cases h
  · exact hcount.trans (activate_beside ..)
  · exact hcount.trans (moveChanged_beside ..)

theorem submitStop_beside (k : Nat) (s : State) : Beside s (submitStop k s) := by
  unfold submitStop
  split
  · exact .refl s
  · next h => exact (submitMove_beside h).trans ⟨_, _, _, _, _, _, _, rfl, rfl⟩

end Beside

end Sys2Proof.Machine

/-! Proofs: a cabin's pass, line by line (chapter 5). -/

namespace Sys2Proof.Machine

/-! ### One cabin's records -/

/-- s with cabin k's record and node record and the gate replaced. -/
def State.recorded (s : State) (k : Nat) (c : Cabin) (n : Node) (g : Option Nat) : State :=
  { s with
    bsq := { s.bsq with cabins := setNth s.bsq.cabins k c, gate := g }
    cru := { s.cru with nodes := setNth s.cru.nodes k n } }

/-- Both record lists have a cabin k. -/
def State.hasCabin (s : State) (k : Nat) : Prop := 1 ≤ k ∧ k ≤ s.bsq.cabins.length ∧ k ≤ s.cru.nodes.length

/-- The gate with an unlocking for cabin k taken back (R88). -/
def lockedGate (k : Nat) (g : Option Nat) : Option Nat := if g = some k then none else g

/-- u comes from s with cabin k's records and the gate replaced, and what accompanies that. -/
def Records (s : State) (k : Nat) (c : Cabin) (n : Node) (g : Option Nat) (u : State) : Prop := Beside (s.recorded k c n g) u

section Records

variable {s t u : State} {k : Nat} {c d : Cabin} {n m : Node} {g : Option Nat}

theorem setNth_setNth {α : Type} (l : List α) (k : Nat) (v w : α) : setNth (setNth l k v) k w = setNth l k w := by
  cases k with
  | zero => rfl
  | succ k => exact List.set_set ..

theorem recorded_self (s : State) (k : Nat) : s.recorded k (s.cabin k) (s.node k) s.bsq.gate = s := by
  rw [State.recorded, State.cabin, State.node, setNth_nth, setNth_nth]

theorem Beside.recorded (h : Beside s t) (k : Nat) (c : Cabin) (n : Node) (g : Option Nat) :
    Beside (s.recorded k c n g) (t.recorded k c n g) := by
  obtain ⟨_, _, _, _, _, _, _, rfl, hl⟩ := h
  exact ⟨_, _, _, _, _, _, _, rfl, hl⟩

theorem recorded_recorded (s : State) (k : Nat) (c d : Cabin) (n m : Node) (g x : Option Nat) :
    (s.recorded k c n g).recorded k d m x = s.recorded k d m x := by
  simp only [State.recorded, setNth_setNth]

theorem Records.begin (h : Beside s t) (k : Nat) : Records s k (s.cabin k) (s.node k) s.bsq.gate t := by
  rw [Records, recorded_self]
  exact h

theorem Records.then (h : Records s k c n g t) (e : Beside t u) : Records s k c n g u := Beside.trans h e

theorem Records.cabin (h : Records s k c n g t) (hk : s.hasCabin k) : t.cabin k = c :=
  (Beside.cabin h k).trans (nth_setNth_self _ _ _ _ ⟨hk.1, hk.2.1⟩)

theorem Records.cabin_other (h : Records s k c n g t) {j : Nat} (hj : j ≠ k) : t.cabin j = s.cabin j :=
  (Beside.cabin h j).trans (nth_setNth_other _ _ _ _ _ hj)

theorem Records.node (h : Records s k c n g t) (hk : s.hasCabin k) : t.node k = n :=
  (Beside.node h k).trans (nth_setNth_self _ _ _ _ ⟨hk.1, hk.2.2⟩)

theorem Records.gate (h : Records s k c n g t) : t.bsq.gate = g := Beside.gate h

theorem Records.queue (h : Records s k c n g t) : t.bsq.queue = s.bsq.queue := Beside.queue (s := s.recorded k c n g) h

theorem Records.ptr (h : Records s k c n g t) : t.ptr = s.ptr := Beside.ptr (s := s.recorded k c n g) h

theorem Records.cfs (h : Records s k c n g t) : t.cfs = s.cfs := Beside.cfs (s := s.recorded k c n g) h

theorem Records.fbu (h : Records s k c n g t) : t.fbu = s.fbu := Beside.fbu (s := s.recorded k c n g) h

theorem Records.wmn (h : Records s k c n g t) : t.wmn = s.wmn := Beside.wmn (s := s.recorded k c n g) h

theorem Records.pim (h : Records s k c n g t) : t.pim = s.pim := Beside.pim (s := s.recorded k c n g) h

theorem Records.time (h : Records s k c n g t) : t.time = s.time := Beside.time (s := s.recorded k c n g) h

theorem Records.hasDoor (h : Records s k c n g t) (j : Nat) : t.hasDoor j = s.hasDoor j := Beside.hasDoor h j

theorem Records.hasCabin (h : Records s k c n g t) (hk : s.hasCabin k) : t.hasCabin k := by
  rw [State.hasCabin, Beside.cabins h, Beside.cru h]
  simp only [State.recorded, length_setNth]
  exact hk

/-- The records of t with any of them replaced. -/
theorem Records.replace (h : Records s k c n g t) (d : Cabin) (m : Node) (x : Option Nat) : Records s k d m x (t.recorded k d m x) := by
  have hrec := Beside.recorded h k d m x
  rwa [recorded_recorded] at hrec

theorem Records.setCabin (h : Records s k c n g t) (hk : s.hasCabin k) (d : Cabin) : Records s k d n g (setCabin k d t) := by
  have heq : Machine.setCabin k d t = t.recorded k d n g := by
    rw [← h.node hk, ← h.gate, State.recorded, State.node, setNth_nth]
    rfl
  rw [heq]
  exact h.replace ..

theorem Records.setNode (h : Records s k c n g t) (hk : s.hasCabin k) (m : Node) : Records s k c m g (setNode k m t) := by
  have heq : Machine.setNode k m t = t.recorded k c m g := by
    rw [← h.cabin hk, ← h.gate, State.recorded, State.cabin, setNth_nth]
    rfl
  rw [heq]
  exact h.replace ..

theorem Records.lockGate (h : Records s k c n g t) (hk : s.hasCabin k) : Records s k c n (lockedGate k g) (lockGate k t) := by
  have heq : Machine.lockGate k t = t.recorded k c n (lockedGate k g) := by
    rw [← h.cabin hk, ← h.node hk, ← h.gate, State.recorded, State.cabin, State.node, setNth_nth, setNth_nth]
    rfl
  rw [heq]
  exact h.replace ..

theorem Records.setPhase_away (h : Records s k c n g t) (hk : s.hasCabin k) :
    Records s k { c with phase := .away } n g (setPhase k .away t) := by
  rw [Machine.setPhase, h.cabin hk]
  exact h.setCabin hk _

theorem Records.setPhase (h : Records s k c n g t) (hk : s.hasCabin k) {ph : Phase} (hp : ph ≠ .away) :
    Records s k { c with phase := ph } { n with awayReported := false } g (setPhase k ph t) := by
  have hcabin := h.setCabin hk { c with phase := ph }
  unfold Machine.setPhase
  rw [h.cabin hk]
  dsimp only
  rw [if_neg hp, hcabin.node hk]
  exact hcabin.setNode hk _

theorem Records.queueCommand (h : Records s k c n g t) (hk : s.hasCabin k) (x : DoorCommand) :
    Records s k c { n with pending := some x, taken := false } g (queueCommand k x t) := by
  rw [Machine.queueCommand, h.node hk]
  exact h.setNode hk _

theorem Records.giveUp (h : Records s k c n g t) : Records s k c n g (giveUpMove k t) := h.then (giveUpMove_beside k t)

theorem Records.notify (h : Records s k c n g t) (x : Notice) : Records s k c n g (notify x t) := h.then (notify_beside x t)

/-- A service state's change: the record, and CABIN_SERVICE and SLOW beside it (R95, R96). -/
theorem Records.serviceChange (h : Records s k c n g t) (hk : s.hasCabin k) (d : Cabin) (x : ServiceCause) :
    Records s k d n g (serviceChange k d x t) :=
  ((h.setCabin hk d).then (.ite (.refl _) (notify_beside ..))).then (slowJudge_beside _)

end Records

/-! ### Close, departure and lock report (R89, R90, R93) -/

section Passing

variable {s t : State} {k : Nat} {c : Cabin} {n : Node} {g : Option Nat}

/-- A node record with CLOSE queued by a cabin that takes a phase (R64, R72). -/
def Node.closing (n : Node) : Node := { n with pending := some .close, taken := false, awayReported := false }

theorem Records.closeCabin (h : Records s k c n g t) (hk : s.hasCabin k) : ∃ r, (c.admittedThisPass = true → r = c.lastPass) ∧
    Records s k { c with phase := .closing, lastPass := r } n.closing (lockedGate k g) (closeCabin k t) := by
  have hphase := ((h.lockGate hk).queueCommand hk .close).setPhase hk (ph := .closing) Phase.noConfusion
  unfold Machine.closeCabin
  dsimp only
  rw [hphase.cabin hk]
  by_cases ha : c.admittedThisPass = true
  · rw [if_pos ha]
    exact ⟨c.lastPass, fun _ => rfl, hphase.giveUp⟩
  · rw [if_neg ha]
    exact ⟨_, fun h => absurd h ha, (hphase.setCabin hk _).giveUp⟩

/-- A cabin record at its departure (R93, R96). -/
def Cabin.departed (c : Cabin) : Cabin :=
  { c with
    phase := .away
    departureDue := false
    service := if c.service = .suspect ∧ c.cleanPass = true ∧ c.lockTime.isSome = true then .inService else c.service }

theorem Records.depart (h : Records s k c n g t) (hk : s.hasCabin k) :
    Records s k c.departed n (lockedGate k g) (depart k t) := by
  have hphase := (h.lockGate hk).setPhase_away hk
  have hdue := hphase.setCabin hk { c with phase := .away, departureDue := false }
  have hrequalified : Records s k c.departed n (lockedGate k g)
      (requalify k (Machine.setCabin k { c with phase := .away, departureDue := false } (Machine.setPhase k .away (Machine.lockGate k t)))) := by
    unfold requalify
    rw [hdue.cabin hk]
    dsimp only
    split
    · next hs => rw [Cabin.departed, if_pos hs]; exact hdue.serviceChange hk _ _
    · next hs => rw [Cabin.departed, if_neg hs]; exact hdue
  unfold Machine.depart
  dsimp only
  rw [hphase.cabin hk]
  exact (hrequalified.notify _).giveUp

theorem Beside.limitRemove (h : Beside s t) (o : LimitOrigin) : Beside (limitRemove o s) (limitRemove o t) := by
  obtain ⟨_, _, _, _, _, _, _, rfl, hl⟩ := h
  refine ⟨_, _, _, _, _, _, _, rfl, ?_⟩
  simp only [Machine.limitRemove, doorLimits, List.filter_filter, Bool.and_comm] at hl ⊢
  rw [← List.filter_filter, ← List.filter_filter, hl]

theorem Records.limitRemove (h : Records s k c n g t) (o : LimitOrigin) :
    Records (limitRemove o s) k c n g (limitRemove o t) := Beside.limitRemove h o

theorem limitRemove_absent {o : LimitOrigin} (h : s.limit o = none) : limitRemove o s = s := by
  have hlist : (s.roc.limits.filter fun e => e.origin != o) = s.roc.limits := by
    refine List.filter_eq_self.mpr fun e he => ?_
    simpa using List.find?_eq_none.mp h e he
  rw [Machine.limitRemove, hlist]

theorem removeDoor_beside (k : Nat) (s : State) : Beside (limitRemove (.door k) s) (removeDoor k s) := by
  unfold removeDoor
  split
  · exact (bringHomeJudge_changed _).beside
  · next h => rw [limitRemove_absent (by simpa [State.hasDoor] using h)]; exact .refl s

theorem limitRemove_hasDoor (k : Nat) (s : State) : (limitRemove (.door k) s).hasDoor k = false := by
  rw [State.hasDoor, limitRemove_limit_self]
  rfl

/-- A cabin record at a lock report, before a departure that is due (R90). -/
def Cabin.locked (c : Cabin) (time : Option Nat) : Cabin :=
  { c with lockTime := time, phase := if c.phase = .doorHold then .closing else c.phase }

theorem Records.lockReport (h : Records s k c n g t) (hk : s.hasCabin k) :
    let x := c.locked (t.lockTimeAt k)
    Records (Machine.limitRemove (.door k) s) k (if c.departureDue then x.departed else x) n
      (if c.departureDue then lockedGate k g else g) (lockReport k t) := by
  intro x
  have hlocked := ((h.setCabin hk x).limitRemove (.door k)).then (removeDoor_beside k _)
  unfold Machine.lockReport
  rw [h.cabin hk]
  dsimp only
  by_cases hd : c.departureDue = true
  · simp only [if_pos hd]
    exact hlocked.depart hk
  · simp only [if_neg hd]
    exact hlocked

end Passing

/-! ### Admission (R84, R85, R86) -/

section Admission

variable {s : State} {k : Nat} {g : Group} {rest : List Group}

theorem evaluateFails_beside (k : Nat) (s : State) : Beside s (evaluateFails k s) := by
  unfold evaluateFails
  split
  · exact .refl s
  · exact .ite (giveUpMove_beside ..) (.refl s)

/-- The records that an admission leaves (R86). -/
theorem admitGroup_beside (k : Nat) (g : Group) (rest : List Group) (s : State) :
    Beside (setCabin k { s.cabin k with manifest := some (s.manifestOf g), admittedThisPass := true, lastPass := some .admitted }
      { s with bsq := { s.bsq with queue := rest, gate := some k } }) (admitGroup k g rest s) := by
  unfold admitGroup
  dsimp only
  exact (((notify_beside _ _).trans (.ite (notify_beside ..) (.refl _))).trans (settleCabins_beside s _)).trans
    (.ite (.refl _) (giveUpMove_beside ..))

theorem evaluate_admits (hq : s.bsq.queue = g :: rest) (h : s.admissible g k = true) : evaluate k s = admitGroup k g rest s := by
  simp only [evaluate, hq, h, ↓reduceIte]

theorem evaluate_refuses (hq : s.bsq.queue = g :: rest) (h : s.admissible g k = false) : evaluate k s = evaluateFails k s := by
  simp only [evaluate, hq, h, Bool.false_eq_true, ↓reduceIte]

/-- An evaluation leaves a cabin's phase. -/
theorem evaluate_phase (hk : 1 ≤ k ∧ k ≤ s.bsq.cabins.length) : ((evaluate k s).cabin k).phase = (s.cabin k).phase := by
  have hfails : ((evaluateFails k s).cabin k).phase = (s.cabin k).phase := by rw [(evaluateFails_beside k s).cabin]
  unfold evaluate
  split
  · exact hfails
  · split
    · rw [(admitGroup_beside ..).cabin, setCabin_cabin_self _ _ _ (by exact hk)]
    · exact hfails

theorem atLeast_noBoard (v : Level) : v.atLeast .noBoard = false ↔ v = .none ∨ v = .slow := by cases v <;> decide

/-- The admission conditions one by one (R85). -/
theorem admissible_iff : s.admissible g k = true ↔
    (s.cabin k).admittedThisPass = false ∧ (s.hlu.effective = .none ∨ s.hlu.effective = .slow) ∧
      s.ptr.referenced = true ∧ (s.cabin k).service = .inService ∧ s.doorOpen k = true ∧
      (g.accessible = true → s.stoppedAt k = true) ∧ s.partyFits g k = true ∧ s.balanceAdmits (s.partyMass g) k = true := by
  rw [← atLeast_noBoard]
  unfold State.admissible
  cases g.accessible <;> simp [and_assoc]

theorem stoppedAt_iff : s.stoppedAt k = true ↔
    ∃ m, s.mvu.slotA = some m ∧ m.kind = .stopCabin k ∧ m.status = .arrived := by
  unfold State.stoppedAt
  split
  · next h => simp [h]
  · next m h => simp [h]

theorem doorOpen_iff : s.doorOpen k = true ↔ (s.node k).state = .answering ∧ (s.node k).door = .opened := by
  simp [State.doorOpen]

/-- A form of the stored loads with their mounting angles, as the sum it is (R112). -/
theorem foldl_add_eq_sum (f : Nat → Int) (l : List Nat) : l.foldl (fun x k => x + f k) 0 = (l.map f).sum := by
  rw [List.sum_eq_foldl, List.foldl_map]

/-- Settles O23. -/
theorem evaluationAdmitsHead : Obligations.EvaluationAdmitsHead := by
  unfold Obligations.EvaluationAdmitsHead
  refine ⟨fun k g rest s h1 hn hq => ?_, fun s => ?_⟩
  · intro mass x y lim allowed
    have hallowed : s.admissible g k = true ↔ allowed := by
      rw [admissible_iff, stoppedAt_iff, doorOpen_iff, and_assoc]
      simp only [State.partyFits, State.balanceAdmits, decide_eq_true_eq, Bool.or_eq_true, and_assoc]
      rfl
    refine ⟨fun ha => ?_, fun ha => ?_⟩
    · have hb := admitGroup_beside k g rest s
      have hself := hb.cabin k
      rw [setCabin_cabin_self _ _ _ (by exact ⟨h1, hn⟩)] at hself
      rw [evaluate_admits hq (hallowed.mpr ha), hb.queue, hb.gate, hself]
      exact ⟨rfl, rfl, rfl, rfl, rfl⟩
    · have hb := evaluateFails_beside k s
      rw [evaluate_refuses hq (Bool.eq_false_iff.mpr (mt hallowed.mp ha))]
      exact ⟨hb.queue, hb.gate, hb.cabins⟩
  · intro t warn clear
    have hx : s.formX = (s.cfs.geometry.cabins.map fun k => ((s.node k).load : Int) * (s.anglesOf k).1).sum := foldl_add_eq_sum _ _
    have hy : s.formY = (s.cfs.geometry.cabins.map fun k => ((s.node k).load : Int) * (s.anglesOf k).2).sum := foldl_add_eq_sum _ _
    have hbsq : t.bsq = { s.withSums.bsq with boardingMove := t.bsq.boardingMove } := (balanceJudge_changed s.withSums).bsq
    have hX : t.bsq.sumX = s.formX := congrArg Bsq.sumX hbsq
    have hY : t.bsq.sumY = s.formY := congrArg Bsq.sumY hbsq
    have hQ : t.bsq.sumQ = s.formX * s.formX + s.formY * s.formY := congrArg Bsq.sumQ hbsq
    rw [hX, hY, hQ]
    exact ⟨hx, hy, rfl, balanceJudge_present (s := s.withSums), balanceJudge_absent (s := s.withSums)⟩

end Admission

end Sys2Proof.Machine

/-! Proofs: the crossings of the platform lines (R79 to R93). -/

namespace Sys2Proof.Machine

/-! ### The crossings by line -/

section Lines

variable {s t : State} {k : Nat} {c : Cabin} {n : Node} {g : Option Nat}

/-- An A crossing's records (R79, R80). -/
theorem crossA_records (hk : s.hasCabin k) : ∃ n,
    Records s k { (s.cabin k).approached with phase := if (s.cabin k).phase = .away then .arriving else (s.cabin k).phase } n
      s.bsq.gate (crossing k .a s) := by
  have hset := (Records.begin (.refl s) k).setCabin hk (s.cabin k).approached
  have hstop (t : State) : Beside t (if ((s.cabin k).phase == .away && t.wantsStop k) = true then submitStop k t else t) :=
    .ite (submitStop_beside k t) (.refl t)
  show ∃ n, Records s k _ n s.bsq.gate (crossA k s)
  unfold crossA
  dsimp only
  by_cases hp : (s.cabin k).phase = .away
  · have harriving : ((s.cabin k).phase == .away) = true := beq_iff_eq.mpr hp
    rw [harriving] at hstop ⊢
    rw [if_pos hp]
    exact ⟨_, ((hset.setPhase hk Phase.noConfusion).then (hstop _)).then (slowChoose_beside _)⟩
  · have harriving : ((s.cabin k).phase == .away) = false := beq_eq_false_iff_ne.mpr hp
    rw [harriving] at hstop ⊢
    rw [if_neg hp]
    exact ⟨_, (hset.then (hstop _)).then (slowChoose_beside _)⟩

/-- The conditions of the door's release (R82). -/
def State.releasable (s : State) (k : Nat) : Prop :=
  ((s.cabin k).service ≠ .outOfService ∨ s.occupied k = true) ∧ (s.node k).state ≠ .silent ∧
    s.hlu.effective ≠ .park ∧ s.ptr.speed ≤ (s.cfs.speeds.board : Int) + 10 ∧
    s.cfs.geometry.position s.ptr.angle k < s.cfs.zones.x ∧ (s.hasDoor k = true ∨ s.doorCount < 4)

/-- The first of the conditions that fails, when one does (R82, R83). -/
def State.firstFailure (s : State) (k : Nat) : SubCause :=
  if (s.cabin k).service = .outOfService ∧ s.occupied k = false then .notInService
  else if (s.node k).state = .silent then .nodeSilent
  else if s.hlu.effective = .park then .level
  else if (s.cfs.speeds.board : Int) + 10 < s.ptr.speed then .speed
  else if s.cfs.zones.x ≤ s.cfs.geometry.position s.ptr.angle k then .position
  else .pointListFull

theorem releaseFailure_released (h : s.releasable k) : s.releaseFailure k = none := by
  obtain ⟨hservice, hnode, hlevel, hspeed, hposition, hlist⟩ := h
  have h1 : ¬(!((s.cabin k).service != .outOfService || s.occupied k)) = true := by
    simpa only [Bool.not_eq_true', Bool.not_eq_false, Bool.or_eq_true, bne_iff_ne] using hservice
  have h6 : ¬s.doorRefused k = true := by
    rcases hlist with h | h
    · simp [State.doorRefused, h]
    · simp [State.doorRefused, Nat.not_le.mpr h]
  rw [State.releaseFailure, if_neg h1, if_neg hnode, if_neg hlevel, if_neg (Int.not_lt.mpr hspeed),
    if_neg (Int.not_le.mpr hposition), if_neg h6]

theorem releaseFailure_refused (h : ¬s.releasable k) : s.releaseFailure k = some (s.firstFailure k) := by
  have h1 : (!((s.cabin k).service != .outOfService || s.occupied k)) = true ↔
      (s.cabin k).service = .outOfService ∧ s.occupied k = false := by simp
  simp only [State.releaseFailure, State.firstFailure, h1]
  split
  · rfl
  split
  · rfl
  split
  · rfl
  split
  · rfl
  split
  · rfl
  next hservice hnode hlevel hspeed hposition =>
    refine if_pos (Decidable.byContradiction fun hlist => ?_)
    refine h ⟨?_, hnode, hlevel, Int.not_lt.mp hspeed, Int.not_le.mp hposition, ?_⟩
    · by_cases ho : (s.cabin k).service = .outOfService
      · exact .inr (by simpa [ho] using hservice)
      · exact .inl ho
    · by_cases hd : s.hasDoor k = true
      · exact .inl hd
      · exact .inr (by simpa [State.doorRefused, hd] using hlist)

/-- What the release decision reads is not what the abort of a trial changes. -/
theorem releaseFailure_abortTrial (k : Nat) (s : State) :
    (abortTrial .doorRelease s).releaseFailure k = s.releaseFailure k := by
  rw [abortTrial_eq]
  rfl

theorem crossD_released (h : s.releaseFailure k = none) :
    crossD k s = releaseDoor k (abortTrial .doorRelease s) := by
  simp only [crossD, releaseFailure_abortTrial, h]

theorem crossD_refused {x : SubCause} (h : s.releaseFailure k = some x) :
    crossD k s = refuseRelease k x (abortTrial .doorRelease s) := by
  simp only [crossD, releaseFailure_abortTrial, h]

theorem crossing_arriving (h : (s.cabin k).phase = .arriving) : crossing k .d s = crossD k s := by
  simp only [crossing, crossEffect, h, reduceCtorEq, ↓reduceIte]

/-- The released door: its records and its entry (R82). -/
theorem releaseDoor_records (hk : s.hasCabin k) (ha : Beside s t) : ∃ m,
    let line := t.cfs.geometry.lineAngle k t.cfs.zones.x
    m.pending = some .release ∧
      Records (limitInsert (.door k) line 0 true (t.ahead line) t) k
        { s.cabin k with phase := .unloading, releaseTime := some t.cfs.clock } m s.bsq.gate (releaseDoor k t) := by
  let line := t.cfs.geometry.lineAngle k t.cfs.zones.x
  let b := limitInsert (.door k) line 0 true (t.ahead line) t
  have hb := Records.begin (.refl b) k
  rw [show b.cabin k = s.cabin k from ha.cabin k, show b.node k = s.node k from ha.node k,
    show b.bsq.gate = s.bsq.gate from ha.gate] at hb
  have hkb : b.hasCabin k := (Records.begin ha k).hasCabin hk
  have hphase := hb.setPhase hkb (ph := .unloading) Phase.noConfusion
  have hclock : (setPhase k .unloading b).cfs = t.cfs := hphase.cfs
  refine ⟨{ s.node k with awayReported := false, pending := some .release, taken := false }, rfl, ?_⟩
  unfold releaseDoor
  dsimp only
  rw [hphase.cabin hkb, hclock]
  exact (hphase.setCabin hkb _).queueCommand hkb .release

theorem Records.makePassing (h : Records s k c n g t) (hk : s.hasCabin k) (x : SubCause) :
    Records s k { c with phase := .passing, lastPass := some (.notReleased x), cleanPass := false }
      { n with awayReported := false } g (makePassing k x t) := by
  have hphase := h.setPhase hk (ph := .passing) Phase.noConfusion
  rw [Machine.makePassing, hphase.cabin hk]
  exact hphase.setCabin hk _

/-- A SIGNAL code's report touches banks and ports alone (R165). -/
theorem report_signal_fields {x : FaultCode} (hx : x.scope = .signal) (j : Option Nat) (s : State) :
    ∃ f l, report x j s = { s with fbu := f, lkp := l } := by
  cases hm : (s.bank x.bank).masks x with
  | true => exact ⟨s.fbu, s.lkp, report_masked j hm⟩
  | false =>
    obtain ⟨l, hn⟩ := reportNoticed_eq j x s
    rw [report_signal j hm hx, hn]
    exact ⟨_, l, rfl⟩

/-- What a refused release leaves of the cabin and of the banks (R83). -/
theorem refuseRelease_records (hk : s.hasCabin k) (ha : Beside s t) (x : SubCause) :
    (refuseRelease k x t).cabin k = { s.cabin k with phase := .passing, cleanPass := false, lastPass := some (.notReleased x) } ∧
      (refuseRelease k x t).fbu = (if x = .speed then report .speedOverBoard (some k) s else s).fbu := by
  have hpassing := (Records.begin ha k).makePassing hk x
  have hptr : (makePassing k x t).ptr = s.ptr := hpassing.ptr
  have hcfs : (makePassing k x t).cfs = s.cfs := hpassing.cfs
  have hfbu : (makePassing k x t).fbu = s.fbu := hpassing.fbu
  unfold refuseRelease
  dsimp only
  rw [(giveUpMove_beside ..).cabin, (giveUpMove_beside ..).fbu]
  by_cases hx : x = .speed
  · obtain ⟨f, l, hr⟩ := report_signal_fields (x := .speedOverBoard) rfl (some k) (makePassing k x t)
    rw [if_pos hx, if_pos hx, report_fbu_congr _ _ hfbu hptr hcfs, hr]
    exact ⟨hpassing.cabin hk, rfl⟩
  · rw [if_neg hx, if_neg hx]
    exact ⟨hpassing.cabin hk, hfbu⟩

/-! A move's change leaves the trial (R54). -/

theorem moveChanged_trial (sl : Slot) (m : Option Move) (s : State) : (moveChanged sl m s).mvu.trial = s.mvu.trial := by
  rw [moveChanged_mvu]
  cases sl <;> rfl

theorem promote_trial (s : State) : (promote s).mvu.trial = s.mvu.trial := by
  unfold promote activate
  split
  · rfl
  · split
    · rw [moveChanged_trial, moveChanged_trial]
      rfl
    · rfl

theorem finishA_trial (m : Move) (s : State) : (finishA m s).mvu.trial = s.mvu.trial := by
  rw [finishA, promote_trial, moveChanged_trial]
  rfl

theorem giveUpMove_trial (k : Nat) (s : State) : (giveUpMove k s).mvu.trial = s.mvu.trial := by
  have hcancel (n : Nat) : ((cancelMove n s).state s).mvu.trial = s.mvu.trial := by
    unfold cancelMove
    repeat' split
    · exact finishA_trial ..
    · rfl
    · rw [MoveAnswer.state, moveChanged_trial]
    · rfl
    · rfl
  have hresume (n : Nat) : ((resumeMove n s).state s).mvu.trial = s.mvu.trial := by
    unfold resumeMove
    repeat' split
    · exact finishA_trial ..
    all_goals rfl
  unfold giveUpMove
  repeat' split
  · rfl
  · exact hresume _
  · exact hcancel _
  · rfl

/-- The trial after a D crossing's decision is the one that the abort has left (R58). -/
theorem crossD_trial (k : Nat) (s : State) : (crossD k s).mvu.trial = (abortTrial .doorRelease s).mvu.trial := by
  have hphase (ph : Phase) (t : State) : (setPhase k ph t).mvu = t.mvu := by
    unfold setPhase
    dsimp only
    split <;> rfl
  have hpassing (x : SubCause) (t : State) : (makePassing k x t).mvu = t.mvu := hphase .passing t
  cases h : s.releaseFailure k with
  | none =>
    rw [crossD_released h]
    exact congrArg Mvu.trial (hphase .unloading _)
  | some x =>
    rw [crossD_refused h, refuseRelease, giveUpMove_trial]
    split
    · obtain ⟨f, l, hr⟩ := report_signal_fields (x := .speedOverBoard) rfl (some k) (makePassing k x (abortTrial .doorRelease s))
      rw [hr]
      exact congrArg Mvu.trial (hpassing x _)
    · exact congrArg Mvu.trial (hpassing x _)

/-- The change to loading is a first evaluation of the cabin with its manifest cleared (R84). -/
theorem changeToLoading_eq (hk : s.hasCabin k) : ∃ u m, changeToLoading k s = evaluate k u ∧
    Records s k { s.cabin k with manifest := none, phase := .loading } m s.bsq.gate u :=
  ⟨_, _, rfl, (((Records.begin (.refl s) k).setCabin hk _).setPhase hk Phase.noConfusion).then (settleCabins_beside s _)⟩

/-- The close of a cabin in UNLOADING clears the manifest first (R79). -/
theorem closeUnloading_records (hk : s.hasCabin k) : ∃ r,
    Records s k { s.cabin k with manifest := none, phase := .closing, lastPass := r } (s.node k).closing
      (lockedGate k s.bsq.gate) (closeUnloading k s) := by
  have hcleared := ((Records.begin (.refl s) k).setCabin hk { s.cabin k with manifest := none }).then (settleCabins_beside s _)
  obtain ⟨r, -, h⟩ := hcleared.closeCabin hk
  exact ⟨r, h⟩

/-- X at a cabin whose records are at hand: the departure, or its being due while the door is out (R93). -/
theorem Records.crossX (h : Records s k c n g t) (hk : s.hasCabin k) : ∃ x : Cabin,
    Records s k { x with phase := if s.hasDoor k then c.phase else .away, departureDue := s.hasDoor k } n
      (if s.hasDoor k then g else lockedGate k g) (crossX k t) ∧
      x.lastPass = c.lastPass ∧ x.cleanPass = c.cleanPass := by
  unfold Machine.crossX
  rw [h.hasDoor, h.cabin hk]
  cases hd : s.hasDoor k with
  | true => exact ⟨c, h.setCabin hk _, rfl, rfl⟩
  | false => exact ⟨c.departed, h.depart hk, rfl, rfl⟩

theorem lockedGate_lockedGate (k : Nat) (g : Option Nat) : lockedGate k (lockedGate k g) = lockedGate k g := by
  by_cases h : g = some k
  · simp only [lockedGate, if_pos h, reduceCtorEq, ↓reduceIte]
  · simp only [lockedGate, if_neg h]

theorem closeProgress_waits {command : RingCommand} {door : Door} (hk : s.hasCabin k)
    (hp : (s.cabin k).phase = .closing ∨ (s.cabin k).phase = .doorHold)
    (h : door ≠ .locked ∨ (s.cabin k).closeAnswered = false ∧ command ≠ .door .close) :
    closeProgress k command door s =
      setCabin k { s.cabin k with closeAnswered := (s.cabin k).closeAnswered || decide (command = .door .close) } s := by
  have hset := (Records.begin (.refl s) k).setCabin hk
    { s.cabin k with closeAnswered := (s.cabin k).closeAnswered || command == .door .close }
  rw [closeProgress, if_pos hp]
  dsimp only
  rw [hset.cabin hk, if_neg]
  · rw [Bool.beq_eq_decide_eq]
  · rintro ⟨hanswered, hlocked⟩
    rcases h with h | ⟨h, hcommand⟩
    · exact h hlocked
    · rw [h, Bool.false_or, beq_iff_eq] at hanswered
      exact hcommand hanswered

theorem closeProgress_locks {command : RingCommand} (hk : s.hasCabin k)
    (hp : (s.cabin k).phase = .closing ∨ (s.cabin k).phase = .doorHold)
    (h : (s.cabin k).closeAnswered = true ∨ command = .door .close) :
    closeProgress k command .locked s = lockReport k (setCabin k { s.cabin k with closeAnswered := true } s) := by
  have hanswered : ((s.cabin k).closeAnswered || command == .door .close) = true := by
    rcases h with h | h
    · rw [h, Bool.true_or]
    · rw [beq_iff_eq.mpr h, Bool.or_true]
  have hset := (Records.begin (.refl s) k).setCabin hk { s.cabin k with closeAnswered := true }
  rw [closeProgress, if_pos hp]
  dsimp only
  rw [hanswered, hset.cabin hk, if_pos ⟨rfl, rfl⟩]

theorem crossing_l (h : (s.cabin k).phase = .unloading) : crossing k .l s = changeToLoading k s := by
  simp only [crossing, crossEffect, h, reduceCtorEq, ↓reduceIte]

theorem crossing_c_loading (h : (s.cabin k).phase = .loading) : crossing k .c s = closeCabin k s := by
  simp only [crossing, crossEffect, h, reduceCtorEq, ↓reduceIte]

theorem crossing_c_unloading (h : (s.cabin k).phase = .unloading) : crossing k .c s = closeUnloading k s := by
  simp only [crossing, crossEffect, h, reduceCtorEq, ↓reduceIte]

theorem crossing_x (h : (s.cabin k).phase = .closing ∨ (s.cabin k).phase = .doorHold ∨ (s.cabin k).phase = .passing) :
    crossing k .x s = crossX k s := by
  rcases h with h | h | h <;> simp only [crossing, crossEffect, h, reduceCtorEq, ↓reduceIte]

theorem crossing_x_open (h : (s.cabin k).phase = .unloading ∨ (s.cabin k).phase = .loading) :
    crossing k .x s = crossX k (closeCabin k s) := by
  rcases h with h | h <;> simp only [crossing, crossEffect, h, reduceCtorEq, ↓reduceIte]

theorem crossing_x_arriving (h : (s.cabin k).phase = .arriving) : crossing k .x s = crossX k (makePassing k .position s) := by
  simp only [crossing, crossEffect, h, reduceCtorEq, ↓reduceIte]

/-- A line that the table has nothing for does nothing (R79). -/
theorem crossing_idle {ln : PlatformLine} (ha : ln ≠ .a)
    (h : (ln, (s.cabin k).phase) ∉ [(PlatformLine.d, Phase.arriving), (.l, .unloading), (.c, .loading), (.c, .unloading),
      (.x, .closing), (.x, .doorHold), (.x, .passing), (.x, .unloading), (.x, .loading), (.x, .arriving)]) :
    crossing k ln s = s := by
  rw [crossing, if_neg ha]
  unfold crossEffect
  split
  case h_11 => rfl
  all_goals next hp => exact absurd (by rw [hp]; decide) h

/-- Settles O22, from the records that each line's operation leaves. -/
theorem crossingsTakeCabinThrough : Obligations.CrossingsTakeCabinThrough := by
  unfold Obligations.CrossingsTakeCabinThrough
  intro k s h1 hcabins hnodes c ph line locked released
  have hk : s.hasCabin k := ⟨h1, hcabins, hnodes⟩
  have hs := Records.begin (.refl s) k
  refine ⟨?a, fun hp hr => ?released, fun hp hr => ?refused, fun hp hm => ?trial, fun hp => ?l, fun hp => ?cLoading,
    fun hp => ?cUnloading, fun hp => ?x, fun hp => ?xOpen, fun hp => ?xArriving, ?depart, fun command door hp => ?lock,
    fun ln ha hidle => crossing_idle ha hidle⟩
  case a =>
    obtain ⟨n, h⟩ := crossA_records hk
    exact ⟨h.cabin hk, fun j hj => h.cabin_other hj⟩
  case released =>
    have hcfs : (abortTrial .doorRelease s).cfs = s.cfs := (abortTrial_beside ..).cfs
    have hptr : (abortTrial .doorRelease s).ptr = s.ptr := (abortTrial_beside ..).ptr
    obtain ⟨m, hm, h⟩ := releaseDoor_records hk (abortTrial_beside .doorRelease s)
    have hkb (x : Nat) (r : Int) : (limitInsert (.door k) x 0 true r (abortTrial .doorRelease s)).hasCabin k :=
      (Records.begin (abortTrial_beside ..) k).hasCabin hk
    have hlimit := (Beside.limit h k).trans (limitInsert_limit_self ..)
    rw [State.ahead, hcfs, hptr] at hlimit
    rw [crossing_arriving hp, crossD_released (releaseFailure_released hr)]
    rw [h.cabin (hkb _ _), h.node (hkb _ _), hcfs]
    exact ⟨rfl, rfl, hm, hlimit⟩
  case refused =>
    intro first
    rw [crossing_arriving hp, crossD_refused (releaseFailure_refused hr)]
    exact refuseRelease_records hk (abortTrial_beside ..) _
  case trial =>
    rw [crossing_arriving hp, crossD_trial, abortTrial_measuring hm]
    rfl
  case l =>
    obtain ⟨u, m, hu, h⟩ := changeToLoading_eq hk
    have hphase : (u.cabin k).phase = .loading := by rw [h.cabin hk]
    have hku := h.hasCabin hk
    rw [crossing_l hp, hu]
    exact ⟨(evaluate_phase ⟨hku.1, hku.2.1⟩).trans hphase, u, rfl, hphase, by rw [h.cabin hk], h.queue⟩
  case cLoading =>
    obtain ⟨r, hr, h⟩ := hs.closeCabin hk
    rw [crossing_c_loading hp, h.cabin hk, h.node hk, h.gate]
    exact ⟨rfl, rfl, rfl, rfl, hr⟩
  case cUnloading =>
    obtain ⟨r, h⟩ := closeUnloading_records hk
    rw [crossing_c_unloading hp, h.cabin hk, h.node hk, h.gate]
    exact ⟨rfl, rfl, rfl, rfl⟩
  case x =>
    rw [crossing_x hp, crossX]
    exact ⟨fun hd => if_pos hd, fun hd => if_neg (by rw [hd]; nofun)⟩
  case xOpen =>
    obtain ⟨r, -, hclosed⟩ := hs.closeCabin hk
    obtain ⟨x, h, -⟩ := hclosed.crossX hk
    rw [crossing_x_open hp, h.cabin hk, h.node hk, h.gate, lockedGate_lockedGate]
    refine ⟨rfl, rfl, rfl, ?_⟩
    cases s.hasDoor k <;> rfl
  case xArriving =>
    obtain ⟨x, h, hlast, hclean⟩ := (hs.makePassing hk .position).crossX hk
    rw [crossing_x_arriving hp, h.cabin hk]
    exact ⟨hlast, rfl, hclean⟩
  case depart =>
    have h := hs.depart hk
    exact ⟨h.cabin hk, h.gate⟩
  case lock =>
    refine ⟨fun hd ha => ?_, closeProgress_waits hk hp⟩
    subst hd
    have h := (hs.setCabin hk { s.cabin k with closeAnswered := true }).lockReport hk
    have hkl : (limitRemove (.door k) s).hasCabin k := hk
    rw [closeProgress_locks hk hp ha, h.hasDoor, limitRemove_hasDoor, h.cabin hkl]
    have htime : (setCabin k { s.cabin k with closeAnswered := true } s).lockTimeAt k =
        if s.hasDoor k = true ∨ c.lockTime = none then some s.cfs.clock else c.lockTime := by
      rw [State.lockTimeAt, setCabin_cabin_self _ _ _ ⟨hk.1, hk.2.1⟩]
      refine if_iff_congr ?_ rfl rfl
      rw [Bool.or_eq_true, Option.isNone_iff_eq_none]
      rfl
    have hclosing : (if ph = .doorHold then Phase.closing else ph) = .closing := by
      rcases hp with h | h <;> rw [h] <;> rfl
    refine ⟨rfl, ?_, ?_⟩
    · rw [← htime]
      split <;> rfl
    · split
      · rfl
      · exact hclosing

end Lines

end Sys2Proof.Machine

/-! Proofs: the cabin ring: slots, retry, failure and replies (chapter 4). -/

namespace Sys2Proof.Machine

/-! ### What leaves the ring alone but for its node records -/

/-- t has the ring of s but for the node records. -/
def RingKept (s t : State) : Prop := t.cru = { s.cru with nodes := t.cru.nodes }

section RingKept

variable {s t u : State} {k : Nat} {c : Cabin} {n : Node} {g : Option Nat}

theorem RingKept.of_cru (h : t.cru = s.cru) : RingKept s t := by rw [RingKept, h]

theorem RingKept.trans (h : RingKept s t) (k : RingKept t u) : RingKept s u := by
  rw [RingKept] at h k ⊢
  rw [k, h]

theorem setNode_ringKept (k : Nat) (n : Node) (s : State) : RingKept s (setNode k n s) := rfl

theorem setPhase_ringKept (k : Nat) (ph : Phase) (s : State) : RingKept s (setPhase k ph s) := by
  unfold setPhase
  dsimp only
  split <;> rfl

/-- A change of a service state, with what accompanies it (R95). -/
theorem serviceChange_beside (k : Nat) (c : Cabin) (x : ServiceCause) (s : State) :
    Beside (setCabin k c s) (serviceChange k c x s) := by
  unfold serviceChange
  dsimp only
  refine Beside.trans ?_ (slowJudge_beside _)
  split
  · exact .refl _
  · exact notify_beside ..

theorem faultHandOver_beside (x : FaultCode) (j : Option Nat) (s : State) : ∃ l,
    Beside { s with bsq := { s.bsq with cabins := l } } (faultHandOver x j s) ∧
    (l = s.bsq.cabins ∨ ∃ i, l = setNth s.bsq.cabins i (suspectAfter s.cfs.boarding.k (s.cabin i))) := by
  unfold faultHandOver
  split
  · exact ⟨_, serviceChange_beside .., .inr ⟨_, rfl⟩⟩
  · exact ⟨s.bsq.cabins, .refl s, .inl rfl⟩

/-- A report touches the banks, a CABIN fault's cabin, and what accompanies that (R156, R165). -/
theorem report_beside (x : FaultCode) (j : Option Nat) (s : State) : ∃ f l,
    Beside { s with fbu := f, bsq := { s.bsq with cabins := l } } (report x j s) ∧
    (l = s.bsq.cabins ∨ ∃ i, l = setNth s.bsq.cabins i (suspectAfter s.cfs.boarding.k (s.cabin i))) := by
  cases hm : (s.bank x.bank).masks x with
  | true =>
    rw [report_masked j hm]
    exact ⟨s.fbu, s.bsq.cabins, .refl s, .inl rfl⟩
  | false =>
    obtain ⟨v, hn⟩ := reportNoticed_eq j x s
    obtain ⟨l, hgiven, hl⟩ := faultHandOver_beside x j (s.reportNoticed x j)
    rw [hn] at hgiven hl
    refine ⟨(setBank x.bank (s.reportedBank x j) s).fbu, l, .trans ?_ (.trans hgiven ?_), hl⟩
    · exact ⟨_, _, _, _, _, _, v, rfl, rfl⟩
    · rw [report_unmasked j hm, hn]
      unfold faultEntry
      split
      · exact .refl _
      · exact .ite (.refl _) (holdInsert_changed ..).beside

theorem report_cru (x : FaultCode) (j : Option Nat) (s : State) : (report x j s).cru = s.cru := by
  obtain ⟨_, _, h, -⟩ := report_beside x j s
  exact h.cru

/-- A replaced entry of a list leaves what the new one shares with the old. -/
theorem nth_setNth_of_eq {α β : Type} (f : α → β) (l : List α) (i j : Nat) (v d : α) (h : f v = f (nth l i d)) :
    f (nth (setNth l i v) j d) = f (nth l j d) := by
  by_cases hj : j = i
  · subst hj
    by_cases hr : 1 ≤ j ∧ j ≤ l.length
    · rw [nth_setNth_self _ _ _ _ hr, h]
    · cases j with
      | zero => rfl
      | succ j => rw [setNth, List.set_eq_of_length_le (by omega)]
  · rw [nth_setNth_other _ _ _ _ _ hj]

/-- A report leaves every cabin's phase. -/
theorem report_phase (x : FaultCode) (j : Option Nat) (s : State) (i : Nat) : ((report x j s).cabin i).phase = (s.cabin i).phase := by
  obtain ⟨_, l, h, hl⟩ := report_beside x j s
  rw [h.cabin]
  rcases hl with rfl | ⟨k, rfl⟩
  · rfl
  · exact nth_setNth_of_eq Cabin.phase s.bsq.cabins k i _ .cold rfl

theorem removeDoor_cru (k : Nat) (s : State) : (removeDoor k s).cru = s.cru := (removeDoor_beside k s).cru

theorem depart_cru (k : Nat) (s : State) : (depart k s).cru = s.cru := by
  have hrequalify (t : State) : (requalify k t).cru = t.cru := by
    unfold requalify
    dsimp only
    split
    · exact (serviceChange_beside ..).cru
    · rfl
  unfold depart
  exact (giveUpMove_beside ..).cru.trans ((notify_beside ..).cru.trans (hrequalify _))

theorem lockReport_cru (k : Nat) (s : State) : (lockReport k s).cru = s.cru := by
  unfold lockReport
  dsimp only
  split
  · exact (depart_cru ..).trans (removeDoor_cru ..)
  · exact removeDoor_cru ..

theorem closeProgress_cru (k : Nat) (x : RingCommand) (d : Door) (s : State) : (closeProgress k x d s).cru = s.cru := by
  unfold closeProgress
  dsimp only
  split
  · split
    · exact lockReport_cru ..
    · rfl
  · rfl

theorem evaluate_cru (k : Nat) (s : State) : (evaluate k s).cru = s.cru := by
  have hadmit (g : Group) (rest : List Group) : (admitGroup k g rest s).cru = s.cru := (admitGroup_beside ..).cru
  unfold evaluate
  split
  · exact (evaluateFails_beside ..).cru
  · split
    · exact hadmit _ _
    · exact (evaluateFails_beside ..).cru

theorem formSums_cru (s : State) : (formSums s).cru = s.cru := (balanceJudge_changed s.withSums).cru

end RingKept

/-! ### The slots (R66, R67) -/

section Slots

variable {s : State} {k : Nat}

/-- Membership of the window list (R66). -/
theorem mem_windowList {k : Nat} : k ∈ s.windowList ↔ 1 ≤ k ∧ k ≤ s.cfs.geometry.n ∧
    ((s.cabin k).phase ≠ .away ∨ (s.node k).pending.isSome = true ∨ s.hasDoor k = true) := by
  have hcabins : k ∈ s.cfs.geometry.cabins ↔ 1 ≤ k ∧ k ≤ s.cfs.geometry.n := by
    simp only [Geometry.cabins, List.mem_map, List.mem_range]
    exact ⟨fun ⟨a, ha, hk⟩ => by omega, fun h => ⟨k - 1, by omega, by omega⟩⟩
  rw [State.windowList, List.mem_filter, hcabins, and_assoc]
  simp [State.inWindowList, or_assoc]

theorem windowList_sorted (s : State) : s.windowList.Pairwise (· < ·) := by
  refine List.Pairwise.filter _ ?_
  rw [Geometry.cabins, List.pairwise_map]
  exact List.pairwise_lt_range.imp fun h => Nat.succ_lt_succ h

/-- The least entry of an ascending list is its first. -/
theorem head_of_sorted {l : List Nat} (h : l.Pairwise (· < ·)) (hk : k ∈ l) (hmin : ∀ j ∈ l, k ≤ j) : ∃ r, l = k :: r := by
  cases l with
  | nil => cases hk
  | cons x xs =>
    obtain ⟨hx, -⟩ := List.pairwise_cons.mp h
    have hle := hmin x List.mem_cons_self
    rcases List.mem_cons.mp hk with rfl | hk
    · exact ⟨xs, rfl⟩
    · exact absurd (hx k hk) (Nat.not_lt.mpr hle)

/-- The first member after the pointer, or the first of all when none comes after it (R66; log 36). -/
theorem windowOrder_head (hk : k ∈ s.windowList)
    (h : (s.cru.windowPointer.getD 0 < k ∧ ∀ j ∈ s.windowList, s.cru.windowPointer.getD 0 < j → k ≤ j) ∨
      ((∀ j ∈ s.windowList, j ≤ s.cru.windowPointer.getD 0) ∧ ∀ j ∈ s.windowList, k ≤ j)) : ∃ r, s.windowOrder = k :: r := by
  have hsorted := windowList_sorted s
  unfold State.windowOrder cyclicAfter
  rcases h with ⟨hlast, hmin⟩ | ⟨hnone, hmin⟩
  · obtain ⟨r, hr⟩ := head_of_sorted (hsorted.filter fun j => decide (s.cru.windowPointer.getD 0 < j))
      (List.mem_filter.mpr ⟨hk, decide_eq_true hlast⟩) fun j hj => by
        obtain ⟨hm, hl⟩ := List.mem_filter.mp hj
        exact hmin j hm (of_decide_eq_true hl)
    rw [hr]
    exact ⟨_, rfl⟩
  · have hempty : (s.windowList.filter fun j => decide (s.cru.windowPointer.getD 0 < j)) = [] :=
      List.filter_eq_nil_iff.mpr fun j hj => by simpa using hnone j hj
    have hall : (s.windowList.filter fun j => decide (j ≤ s.cru.windowPointer.getD 0)) = s.windowList :=
      List.filter_eq_self.mpr fun j hj => decide_eq_true (hnone j hj)
    rw [hempty, hall, List.nil_append]
    exact head_of_sorted hsorted hk hmin

/-- A transaction to a cabin as it begins (R64). -/
def State.begun (s : State) (k : Nat) : Transaction :=
  { cabin := k, command := (s.node k).nextCommand, retry := false, carried := (s.node k).pending.isSome, wait := none }

/-- s with cabin k's pending command marked as taken (R64). -/
def State.commandTaken (s : State) (k : Nat) : State :=
  if (s.node k).pending.isSome then setNode k { s.node k with taken := true } s else s

theorem startTransaction_eq (k : Nat) (s : State) : startTransaction k s =
    { s.commandTaken k with cru := { (s.commandTaken k).cru with flight := some (s.begun k) } } := by
  unfold startTransaction State.commandTaken
  dsimp only
  split <;> rfl

theorem commandTaken_cru (p : Option Nat) (r : Nat) (x : SlotKind) (s : State) (k : Nat) :
    ({ s with cru := { s.cru with windowPointer := p, roundPointer := r, nextSlot := x } } : State).commandTaken k =
      { s.commandTaken k with cru := { (s.commandTaken k).cru with windowPointer := p, roundPointer := r, nextSlot := x } } := by
  by_cases h : (s.node k).pending.isSome = true
  · exact (if_pos h).trans (by rw [State.commandTaken, if_pos h]; rfl)
  · exact (if_neg h).trans (by rw [State.commandTaken, if_neg h])

theorem commandTaken_pointers (s : State) (k : Nat) : (s.commandTaken k).cru = { s.cru with nodes := (s.commandTaken k).cru.nodes } := by
  unfold State.commandTaken
  split <;> rfl

/-- A WINDOW slot with a member (R66, R67). -/
theorem beginTransaction_window (hs : s.cru.nextSlot = .window) {r : List Nat} (hr : s.windowOrder = k :: r) :
    beginTransaction s = { s.commandTaken k with cru := { (s.commandTaken k).cru with
      flight := some (s.begun k), windowPointer := some k, nextSlot := .round } } := by
  have hbegin : beginTransaction s = startTransaction k { s with cru := { s.cru with windowPointer := some k, nextSlot := .round } } := by
    simp only [beginTransaction, hs, hr]
  have htaken := commandTaken_cru (some k) s.cru.roundPointer .round s k
  rw [hbegin, startTransaction_eq, htaken]
  rw [commandTaken_pointers s k]
  rfl

/-- A ROUND slot, and a WINDOW slot with an empty window list (R67). -/
theorem beginTransaction_round (h : s.cru.nextSlot = .round ∨ s.windowOrder = []) :
    beginTransaction s = { s.commandTaken s.roundNext with cru := { (s.commandTaken s.roundNext).cru with
      flight := some (s.begun s.roundNext), roundPointer := s.roundNext, nextSlot := .window } } := by
  have hbegin : beginTransaction s = beginRound s := by
    unfold beginTransaction
    split
    · rfl
    · rcases h with h | h
      · next hs => exact SlotKind.noConfusion (hs.symm.trans h)
      · rw [h]
  have htaken := commandTaken_cru s.cru.windowPointer s.roundNext .window s s.roundNext
  rw [hbegin, beginRound, startTransaction_eq, htaken]
  rw [commandTaken_pointers s s.roundNext]
  rfl

theorem commandTaken_node (s : State) (k j : Nat) : ∃ b, (s.commandTaken k).node j = { s.node j with taken := b } := by
  unfold State.commandTaken
  split
  · by_cases hj : j = k
    · subst hj
      by_cases hr : 1 ≤ j ∧ j ≤ s.cru.nodes.length
      · exact ⟨true, setNode_node_self _ _ _ hr⟩
      · refine ⟨(s.node j).taken, ?_⟩
        cases j with
        | zero => rfl
        | succ j =>
          have hsame : setNth s.cru.nodes (j + 1) { s.node (j + 1) with taken := true } = s.cru.nodes := by
            rw [setNth, List.set_eq_of_length_le (by omega)]
          exact congrArg (fun l => nth l (j + 1) Node.cold) hsame
    · exact ⟨(s.node j).taken, setNode_node_other _ _ hj⟩
  · exact ⟨(s.node j).taken, rfl⟩

theorem commandTaken_rest (s : State) (k : Nat) : s.commandTaken k = { s with cru := (s.commandTaken k).cru } := by
  unfold State.commandTaken
  split <;> rfl

/-- What the end of a transaction touches: the ring, of a node record its taken marker alone (R64, R67). -/
theorem endTransaction_rest (s : State) : endTransaction s = { s with cru := (endTransaction s).cru } ∧
    ∀ j, ∃ b, (endTransaction s).node j = { s.node j with taken := b } := by
  have hbegin : beginTransaction s = { s with cru := (beginTransaction s).cru } ∧
      ∀ j, ∃ b, (beginTransaction s).node j = { s.node j with taken := b } := by
    have slot {k : Nat} {c : Cru} (h : beginTransaction s = { s.commandTaken k with cru := c })
        (hn : c.nodes = (s.commandTaken k).cru.nodes) : beginTransaction s = { s with cru := (beginTransaction s).cru } ∧
          ∀ j, ∃ b, (beginTransaction s).node j = { s.node j with taken := b } := by
      rw [h, commandTaken_rest]
      refine ⟨rfl, fun j => ?_⟩
      obtain ⟨b, hb⟩ := commandTaken_node s k j
      exact ⟨b, (congrArg (fun l => nth l j Node.cold) hn).trans hb⟩
    by_cases hr : s.cru.nextSlot = .round ∨ s.windowOrder = []
    · exact slot (beginTransaction_round hr) rfl
    · cases horder : s.windowOrder with
      | nil => exact absurd (.inr horder) hr
      | cons k r =>
        refine slot (beginTransaction_window ?_ horder) rfl
        cases hs : s.cru.nextSlot with
        | window => rfl
        | round => exact absurd (.inl hs) hr
  unfold endTransaction
  split
  · exact hbegin
  · exact ⟨rfl, fun j => ⟨(s.node j).taken, rfl⟩⟩

theorem endTransaction_config (h : s.cfs.device = .config) :
    endTransaction s = { s with cru := { s.cru with running := false } } := if_neg (by rw [h]; exact Device.noConfusion)

theorem endTransaction_service (h : s.cfs.device = .service) : endTransaction s = beginTransaction s := if_pos h

end Slots

/-! ### Retry and failure (R60, R69, R70) -/

section Tries

variable {s : State} {t : Transaction}

theorem waiting_none (h : ∀ t, s.cru.flight = some t → t.wait = none) : s.waiting = none := by
  unfold State.waiting
  split
  · rfl
  · next t ht => rw [h t ht]; rfl

theorem waiting_some (h : s.cru.flight = some t) (hw : t.wait.isSome = true) : s.waiting = some t := by
  simp only [State.waiting, h, hw, ↓reduceIte]

theorem nodeTimeout_idle (h : ∀ t, s.cru.flight = some t → t.wait = none) : nodeTimeout s = s := by
  rw [nodeTimeout, waiting_none h]

theorem nodeTimeout_waiting (h : s.cru.flight = some t) (hw : t.wait.isSome = true) : nodeTimeout s = endTry t s := by
  rw [nodeTimeout, waiting_some h hw]

theorem endTry_first (h : t.retry = false) :
    endTry t s = { s with cru := { s.cru with flight := some { t with retry := true, wait := none } } } :=
  if_neg (by rw [h]; exact Bool.false_ne_true)

theorem endTry_second (h : t.retry = true) : endTry t s = failTransaction t s := if_pos h

/-- The fault that a new silence of a cabin is reported as (R70). -/
theorem silence_away {ph : Phase} (h : ph = .away ∨ ph = .arriving ∨ ph = .passing) : ph.silence = .nodeSilentAway := by
  rcases h with rfl | rfl | rfl <;> rfl

theorem silence_platform {ph : Phase} (h1 : ph ≠ .away) (h2 : ph ≠ .arriving) (h3 : ph ≠ .passing) :
    ph.silence = .nodeSilentPlatform := by
  cases ph <;> first | rfl | contradiction

/-- The state of a failed transaction before the next one begins (R70). -/
def State.failed (s : State) (t : Transaction) : State :=
  let s' := setNode t.cabin { s.node t.cabin with taken := false, state := .silent } { s with cru := { s.cru with flight := none } }
  clearClean t.cabin
    (if (s.node t.cabin).state = .silent then s' else report (s.cabin t.cabin).phase.silence (some t.cabin) s')

theorem failTransaction_eq (t : Transaction) (s : State) : failTransaction t s = endTransaction (s.failed t) := rfl

end Tries


end Sys2Proof.Machine

/-! Proofs: the ring's obligations: tries and failures, good replies (R60 to R74). -/

namespace Sys2Proof.Machine

section Failure

variable {s : State} {t : Transaction}

/-- The report of a new silence, on the node record that has become SILENT (R70). -/
def State.silenced (s : State) (t : Transaction) : State :=
  let s' := setNode t.cabin { s.node t.cabin with taken := false, state := .silent } { s with cru := { s.cru with flight := none } }
  if (s.node t.cabin).state = .silent then s' else report (s.cabin t.cabin).phase.silence (some t.cabin) s'

theorem failed_eq (s : State) (t : Transaction) : s.failed t = clearClean t.cabin (s.silenced t) := rfl

theorem silenced_cru (s : State) (t : Transaction) : (s.silenced t).cru =
    { s.cru with
      flight := none
      nodes := setNth s.cru.nodes t.cabin { s.node t.cabin with taken := false, state := .silent } } := by
  unfold State.silenced
  dsimp only
  split
  · rfl
  · rw [report_cru]
    rfl

theorem silenced_cabins (s : State) (t : Transaction) : (s.silenced t).bsq.cabins.length = s.bsq.cabins.length := by
  unfold State.silenced
  dsimp only
  split
  · rfl
  · exact (report_event ..).cabins

theorem silenced_parts (s : State) (t : Transaction) : (s.silenced t).ptr = s.ptr ∧ (s.silenced t).wmn = s.wmn ∧
    (s.silenced t).pim = s.pim ∧ (s.silenced t).cfs = s.cfs ∧ (s.silenced t).time = s.time := by
  unfold State.silenced
  dsimp only
  split
  · exact ⟨rfl, rfl, rfl, rfl, rfl⟩
  · have h := report_event (s.cabin t.cabin).phase.silence (some t.cabin)
      (setNode t.cabin { s.node t.cabin with taken := false, state := .silent } { s with cru := { s.cru with flight := none } })
    exact ⟨h.ptr, h.wmn, h.pim, h.cfs, h.time⟩

theorem silenced_fbu (s : State) (t : Transaction) : (s.silenced t).fbu =
    if (s.node t.cabin).state = .silent then s.fbu else (report (s.cabin t.cabin).phase.silence (some t.cabin) s).fbu := by
  unfold State.silenced
  dsimp only
  split
  · rfl
  · exact report_fbu_congr _ _ rfl rfl rfl

end Failure

/-- Settles O20: the slots by the order of the window list, and the tries of one transaction. -/
theorem ringTriesAndFails : Obligations.RingTriesAndFails := by
  unfold Obligations.RingTriesAndFails
  refine ⟨fun u => ⟨endTransaction_config, fun hservice => ?slots⟩, fun s hreset => ⟨fun hf => ?idle, fun t ht => ?tries⟩⟩
  case slots =>
    intro member last command begun marked
    have hmember (k : Nat) : k ∈ u.windowList ↔ member k := mem_windowList
    have hcommand (k : Nat) : u.begun k = begun k := rfl
    refine ⟨fun k hs hk h => ?_, fun h => ?_⟩
    · obtain ⟨r, hr⟩ := windowOrder_head ((hmember k).mpr hk) (h.imp (And.imp_right fun hj j hm => hj j ((hmember j).mp hm))
        (And.imp (fun hj j hm => hj j ((hmember j).mp hm)) fun hj j hm => hj j ((hmember j).mp hm)))
      exact (endTransaction_service hservice).trans (beginTransaction_window hs hr)
    · refine (endTransaction_service hservice).trans (beginTransaction_round (h.imp_right fun hnone => ?_))
      have hempty : u.windowList = [] := List.eq_nil_iff_forall_not_mem.mpr fun k hk => hnone k ((hmember k).mp hk)
      rw [State.windowOrder, hempty]
      rfl
  case idle =>
    have hnone : ∀ t, s.cru.flight = some t → t.wait = none := fun t ht => absurd (hf.symm.trans ht) nofun
    refine ⟨congrArg Host.Outcome.next ((unlessReset_running hreset).trans ?_),
      congrArg Host.Outcome.next ((unlessReset_running hreset).trans (nodeTimeout_idle hnone))⟩
    rw [requestSent, hf]
  case tries =>
    have htimeout {u : State} (h : nodeTimeout s = u) : exec .nodeTimeout s = .next u :=
      congrArg _ ((unlessReset_running hreset).trans h)
    intro ph
    refine ⟨fun hw => ⟨?_, htimeout (nodeTimeout_idle fun x hx => ?_)⟩,
      fun hw hr => htimeout ((nodeTimeout_waiting ht hw).trans (endTry_first hr)), fun hw hr h1 hn hc => ?failed⟩
    · refine congrArg Host.Outcome.next ((unlessReset_running hreset).trans ?_)
      simp only [requestSent, ht, hw, Option.isSome_none, Bool.false_eq_true, ↓reduceIte]
    · obtain rfl := Option.some.inj (ht.symm.trans hx)
      exact hw
    case failed =>
      obtain ⟨hrest, htaken⟩ := endTransaction_rest (s.failed t)
      obtain ⟨b, hb⟩ := htaken t.cabin
      obtain ⟨hptr, hwmn, hpim, hcfs, htime⟩ := silenced_parts s t
      have hnode : (s.failed t).node t.cabin = { s.node t.cabin with taken := false, state := .silent } := by
        refine (congrArg (fun c : Cru => nth c.nodes t.cabin Node.cold) (silenced_cru s t)).trans ?_
        exact nth_setNth_self _ _ _ _ ⟨h1, hn⟩
      have hclean : ((s.failed t).cabin t.cabin).cleanPass = false := by
        rw [failed_eq, clearClean, setCabin_cabin_self _ _ _ ⟨h1, by rw [silenced_cabins]; exact hc⟩]
      have hfbu : (endTransaction (s.failed t)).fbu = (s.silenced t).fbu := by rw [hrest]; rfl
      rw [silenced_fbu] at hfbu
      refine ⟨endTransaction (s.failed t), htimeout ((nodeTimeout_waiting ht hw).trans (endTry_second hr)), by rw [hb, hnode], ?_, ?_,
        fun hsilent => ?_, fun hnew hph => ?_, fun hnew h2 h3 h4 => ?_, ⟨s.failed t, rfl, hcfs, ?_⟩, ?_, ?_, ?_, ?_, ?_⟩
      · rw [hb, hnode]
      · rw [hrest]
        exact hclean
      · rw [hfbu, if_pos hsilent]
      · rw [hfbu, if_neg hnew, silence_away hph]
      · rw [hfbu, if_neg hnew, silence_platform h2 h3 h4]
      · show (s.silenced t).cru = { s.cru with nodes := (s.silenced t).cru.nodes, flight := none }
        rw [silenced_cru]
      all_goals rw [hrest]
      · exact hptr
      · exact hwmn
      · exact hpim
      · exact hcfs
      · exact htime

/-! ### Good replies (R61) -/

section Replies

variable {s : State} {t : Transaction} {r : RingReply}

theorem toNat_half (high low : Byte) : (half high low).toNat = 256 * high.toNat + low.toNat := by
  rw [half, BitVec.toNat_append, ← Nat.shiftLeft_add_eq_or_of_lt low.isLt, Nat.shiftLeft_eq]
  omega

theorem judgeReply_good {door high low flags : Byte} {d : Door} (hk : t.cabin < 256) (hd : Door.ofCode door.toNat = some d) :
    judgeReply t ([BitVec.ofNat 8 t.cabin, BitVec.ofNat 8 t.command.code, door, high, low, flags] ++
      [crc8 [BitVec.ofNat 8 t.cabin, BitVec.ofNat 8 t.command.code, door, high, low, flags]]) =
      some { door := d, load := 256 * high.toNat + low.toNat, call := flags.getLsbD 0, selfCheck := flags.getLsbD 1 } := by
  have hcabin : (BitVec.ofNat 8 t.cabin).toNat = t.cabin := by rw [BitVec.toNat_ofNat, Nat.mod_eq_of_lt hk]
  have hcommand : (BitVec.ofNat 8 t.command.code).toNat = t.command.code := by
    rw [BitVec.toNat_ofNat]
    cases t.command with
    | poll => rfl
    | door c => cases c <;> rfl
  simp only [judgeReply, List.cons_append, List.nil_append, hd, hcabin, hcommand, and_self, ↓reduceIte, toNat_half]

theorem doorCode_range {n : Nat} {d : Door} (h : Door.ofCode n = some d) : 1 ≤ n ∧ n ≤ 5 := by
  unfold Door.ofCode at h
  split at h
  case h_6 => cases h
  all_goals exact ⟨by decide, by decide⟩

theorem judgeReply_bad {bytes : List Byte}
    (h : bytes.length ≠ 7 ∨ ∃ address echo door high low flags check : Byte,
      bytes = [address, echo, door, high, low, flags, check] ∧
      (check ≠ crc8 [address, echo, door, high, low, flags] ∨ address.toNat ≠ t.cabin ∨ echo.toNat ≠ t.command.code ∨
        door.toNat = 0 ∨ 5 < door.toNat)) : judgeReply t bytes = none := by
  unfold judgeReply
  split
  · next address echo door high low flags check =>
    rcases h with h | ⟨_, _, _, _, _, _, _, heq, h⟩
    · exact absurd rfl h
    · simp only [List.cons.injEq, and_true] at heq
      obtain ⟨rfl, rfl, rfl, rfl, rfl, rfl, rfl⟩ := heq
      split
      · rfl
      · next d hd =>
        refine if_neg ?_
        rintro ⟨hcheck, haddress, hecho⟩
        rcases h with h | h | h | h | h
        · exact h hcheck
        · exact h haddress
        · exact h hecho
        · exact absurd (doorCode_range hd).1 (by omega)
        · exact absurd (doorCode_range hd).2 (by omega)
  · rfl

theorem replyArrives_bad {bytes : List Byte} (h : judgeReply t bytes = none) (ht : s.cru.flight = some t) (hw : t.wait.isSome = true) :
    replyArrives bytes s = endTry t s := by
  simp only [replyArrives, waiting_some ht hw, h]

theorem replyArrives_good {bytes : List Byte} (h : judgeReply t bytes = some r) (ht : s.cru.flight = some t)
    (hw : t.wait.isSome = true) : replyArrives bytes s = goodReply t r s := by
  simp only [replyArrives, waiting_some ht hw, h]

/-- What a report leaves of what the later steps of a reply read. -/
theorem report_read (x : FaultCode) (j : Option Nat) (s : State) (k : Nat) :
    (report x j s).cfs = s.cfs ∧ (report x j s).cru = s.cru ∧ ((report x j s).cabin k).phase = (s.cabin k).phase :=
  ⟨(report_event x j s).cfs, report_cru x j s, report_phase x j s k⟩

theorem doorAway_eq {k : Nat} {d : Door} {a : Bool} {ph : Phase} (ha : (s.node k).awayReported = a) (hp : (s.cabin k).phase = ph) :
    doorAway k d s =
      if d = .opened ∨ d = .moving then
        if ph = .away ∧ a = false then report .doorOpenAway (some k) (setNode k { s.node k with awayReported := true } s) else s
      else setNode k { s.node k with awayReported := false } s := by
  rw [← ha, ← hp]
  rfl

/-- The node record that a good reply stores (R61, R65). -/
theorem answered_eq (n : Node) (carried : Bool) (r : RingReply) (clock : Nat) :
    n.answered carried r clock =
      { state := .answering, door := r.door, load := min 4000 r.load, call := r.call, selfCheck := r.selfCheck
        pending := if carried = true ∧ n.taken = true then none else n.pending
        taken := if carried = true ∧ n.taken = true then false else n.taken
        awayReported := n.awayReported, lastAnswer := some clock } := by
  have hcond : (carried && n.taken) = true ↔ carried = true ∧ n.taken = true := Bool.and_eq_true_iff
  unfold Node.answered Node.settled
  by_cases h : carried = true ∧ n.taken = true
  · rw [if_pos h, if_pos h, if_pos (hcond.mpr h)]
  · rw [if_neg h, if_neg h, if_neg (mt hcond.mp h)]

theorem doorAway_event (k : Nat) (d : Door) (s : State) : Event s (doorAway k d s) := by
  unfold doorAway
  dsimp only
  split
  · exact .ite ((setNode_event (by rfl)).trans (report_event ..)) (.refl s)
  · exact setNode_event (by rfl)

theorem doorAway_read (k : Nat) (d : Door) (s : State) :
    (doorAway k d s).cfs = s.cfs ∧ ((doorAway k d s).cabin k).phase = (s.cabin k).phase := by
  refine ⟨(doorAway_event k d s).cfs, ?_⟩
  unfold doorAway
  dsimp only
  split
  · split
    · exact report_phase ..
    · rfl
  · rfl

theorem doorAway_ringKept (k : Nat) (d : Door) (s : State) : RingKept s (doorAway k d s) := by
  unfold doorAway
  dsimp only
  split
  · split
    · exact (setNode_ringKept ..).trans (.of_cru (report_cru ..))
    · exact .of_cru rfl
  · exact setNode_ringKept ..

theorem replyFaults_event (k : Nat) (b : Bool) (r : RingReply) (old : Node) (s : State) : Event s (replyFaults k b r old s) := by
  have faulted (c : Prop) [Decidable c] (x : FaultCode) (t : State) : Event t (if c then report x (some k) t else t) :=
    .ite (report_event ..) (.refl t)
  exact (faulted _ _ s).trans ((faulted _ _ _).trans ((doorAway_event k r.door _).trans (faulted _ _ _)))

theorem replyFaults_ringKept (k : Nat) (b : Bool) (r : RingReply) (old : Node) (s : State) :
    RingKept s (replyFaults k b r old s) := by
  have faulted (c : Prop) [Decidable c] (x : FaultCode) (t : State) : RingKept t (if c then report x (some k) t else t) := by
    split
    · exact .of_cru (report_cru ..)
    · exact .of_cru rfl
  exact (faulted _ _ s).trans ((faulted _ _ _).trans ((doorAway_ringKept k r.door _).trans (faulted _ _ _)))

theorem replyCall_ringKept (k : Nat) (r : RingReply) (old : Node) (s : State) : RingKept s (replyCall k r old s) := by
  unfold replyCall
  split <;> exact .of_cru rfl

theorem takeReply_ringKept (k : Nat) (t : Transaction) (r : RingReply) (before s : State) :
    RingKept s (takeReply k t r before s) := by
  have cleared (x : State) : (if t.retry || r.door == .doorFault then clearClean k x else x).cru = x.cru := by split <;> rfl
  have summed (x : State) : (if (x.node k).load = (before.node k).load then x else settleCabins before (formSums x)).cru = x.cru := by
    split
    · rfl
    · exact (settleCabins_beside ..).cru.trans (formSums_cru x)
  have evaluated (x : State) : (if (x.cabin k).phase = .loading then evaluate k x else x).cru = x.cru := by
    split
    · exact evaluate_cru k x
    · rfl
  exact .of_cru ((evaluated _).trans ((summed _).trans ((closeProgress_cru ..).trans (cleared s))))

end Replies

/-- Settles O21: a reply is judged, and the steps of a good one are taken in their order, each reading what the earlier ones
have left. -/
theorem goodReplyFillsNode : Obligations.GoodReplyFillsNode := by
  unfold Obligations.GoodReplyFillsNode
  intro s t hreset ht hw h1 hn hbyte
  have hexec {bytes : List Byte} {u : State} (h : replyArrives bytes s = u) : exec (.ringReplyReceived bytes) s = .next u :=
    congrArg _ ((unlessReset_running hreset).trans h)
  refine ⟨fun door high low flags d hd => ?good, fun bytes hbad => ?bad⟩
  case bad =>
    have hreply := replyArrives_bad (judgeReply_bad hbad) ht hw
    have htimeout : exec .nodeTimeout s = .next (endTry t s) :=
      congrArg _ ((unlessReset_running hreset).trans (nodeTimeout_waiting ht hw))
    exact ⟨(hexec hreply).trans htimeout.symm, fun hr => hexec (hreply.trans (endTry_first hr))⟩
  case good =>
    intro body
    let r : RingReply :=
      { door := d, load := 256 * high.toNat + low.toNat, call := flags.getLsbD 0, selfCheck := flags.getLsbD 1 }
    let stored := setNode t.cabin ((s.node t.cabin).answered t.carried r s.cfs.clock)
      { s with cru := { s.cru with flight := none } }
    let final := takeReply t.cabin t r s
      (replyCall t.cabin r (s.node t.cabin) (replyFaults t.cabin t.retry r (s.node t.cabin) stored))
    have hstored : stored.node t.cabin = (s.node t.cabin).answered t.carried r s.cfs.clock :=
      setNode_node_self _ _ _ ⟨h1, hn⟩
    have hevent : Event stored final :=
      (replyFaults_event ..).trans ((replyCall_event ..).trans (takeReply_event ..))
    have hring : RingKept stored final :=
      (replyFaults_ringKept ..).trans ((replyCall_ringKept ..).trans (takeReply_ringKept ..))
    have hheard : (final.node t.cabin).heard = (stored.node t.cabin).heard := by
      rw [← nth_heard, ← nth_heard, hevent.heard]
    rw [hstored, answered_eq] at hheard
    obtain ⟨hrest, htaken⟩ := endTransaction_rest final
    obtain ⟨b, hb⟩ := htaken t.cabin
    simp only [Node.heard, Prod.mk.injEq] at hheard
    obtain ⟨hstate, hdoor, hload, hcall, hself, hlast⟩ := hheard
    refine ⟨endTransaction final, hexec (replyArrives_good (judgeReply_good hbyte hd) ht hw), ?_, ?_, ?_, ?_, ?_, ?_,
      ⟨final, rfl, hevent.cfs, ?_⟩, ?_, ?_, ?_, ?_, ?_, ?steps⟩
    case steps =>
      intro k n load settled stored' retried clamped away checked called judged closed summed
      have hread (c : Prop) [Decidable c] (x : FaultCode) (y : State) : ∀ z, z = (if c then report x (some k) y else y) →
          z.cfs = y.cfs ∧ z.cru = y.cru ∧ (z.cabin k).phase = (y.cabin k).phase := by
        rintro z rfl
        split
        · exact report_read x (some k) y k
        · exact ⟨rfl, rfl, rfl⟩
      obtain ⟨hc1, hr1, hp1⟩ := hread _ _ _ retried rfl
      obtain ⟨hc2, hr2, hp2⟩ := hread _ _ _ clamped rfl
      obtain ⟨hc4, hr4, hp4⟩ := hread _ _ _ checked rfl
      have hsame : stored = stored' := by
        show setNode k _ _ = setNode k _ _
        rw [answered_eq]
      have hmarker : (clamped.node k).awayReported = n.awayReported := by
        have hkept : clamped.node k = stored'.node k := congrArg (fun c : Cru => nth c.nodes k Node.cold) (hr2.trans hr1)
        rw [hkept, ← hsame, hstored, answered_eq]
      have haway : doorAway k d clamped = away := doorAway_eq hmarker (hp2.trans hp1)
      obtain ⟨hc3, hp3⟩ := doorAway_read k d clamped
      rw [haway] at hc3 hp3
      have hphase : (checked.cabin k).phase = (s.cabin k).phase := hp4.trans (hp3.trans (hp2.trans hp1))
      have hclock : checked.cfs = s.cfs := hc4.trans (hc3.trans (hc2.trans hc1))
      have hfaults : replyFaults k t.retry r n stored = checked := by
        rw [hsame]
        show (if (flags.getLsbD 1 && !n.selfCheck) = true then report .nodeSelfCheck (some k) (doorAway k d clamped)
          else doorAway k d clamped) = checked
        rw [haway]
        exact if_iff_congr (by rw [Bool.and_eq_true, Bool.not_eq_true']) rfl rfl
      have hcalled : replyCall k r n checked = called := by
        rw [replyCall, hphase, hclock]
        exact if_iff_congr (by rw [Bool.and_eq_true, Bool.not_eq_true']) rfl rfl
      have hjudged : (if (t.retry || d == .doorFault) = true then clearClean k called else called) = judged :=
        if_iff_congr (by rw [Bool.or_eq_true, beq_iff_eq]) rfl rfl
      have hclosed : (closed.node k).load = min 4000 load := by
        have hjudge : Event called judged := .ite (setCabin_event (by rfl)) (.refl _)
        have hsteps : Event stored closed := by
          refine (replyFaults_event k t.retry r n stored).trans (.trans (replyCall_event k r n _) ?_)
          rw [hfaults, hcalled]
          exact hjudge.trans (closeProgress_event ..)
        have hkept : (closed.node k).heard = (stored.node k).heard := by rw [← nth_heard, ← nth_heard, hsteps.heard]
        rw [hstored, answered_eq] at hkept
        exact congrArg (fun h => h.2.2.1) hkept
      have htaken : takeReply k t r s called = if (summed.cabin k).phase = .loading then evaluate k summed else summed := by
        unfold takeReply
        dsimp only
        rw [hjudged]
        show (if ((if (closed.node k).load = n.load then closed else settleCabins s (formSums closed)).cabin k).phase = .loading then _ else _) = _
        rw [hclosed]
      show endTransaction (takeReply k t r s (replyCall k r n (replyFaults k t.retry r n stored))) = _
      rw [hfaults, hcalled, htaken]
    · rw [hb]; exact hstate
    · rw [hb]; exact hdoor
    · rw [hb]; exact hload
    · rw [hb]; exact hcall
    · rw [hb]; exact hself
    · rw [hb]; exact hlast
    · rw [hring]
      rfl
    all_goals rw [hrest]
    · exact hevent.ptr
    · exact hevent.wmn
    · exact hevent.pim
    · exact hevent.cfs
    · exact hevent.time

end Sys2Proof.Machine

/-! Proofs: the seeding of the pass records and of the cabins' phases (R10, R99). -/

namespace Sys2Proof.Machine

section Seeding

variable {s t : State} {k : Nat}

/-! ### The pass records (R10) -/

theorem allLines_ascending : allLines.Pairwise fun m n => lineRank (some m) ≤ lineRank (some n) := by decide

/-- The last of a list that ascends in f has the greatest f. -/
theorem getLast?_greatest {α : Type} {f : α → Nat} {l : List α} (h : l.Pairwise fun a b => f a ≤ f b) {a : α} (ha : a ∈ l) :
    ∃ b, l.getLast? = some b ∧ b ∈ l ∧ ∀ c ∈ l, f c ≤ f b := by
  have hne : l ≠ [] := List.ne_nil_of_mem ha
  refine ⟨l.getLast hne, List.getLast?_eq_some_getLast hne, List.getLast_mem hne, fun c hc => ?_⟩
  rw [← List.dropLast_concat_getLast hne] at hc h
  rcases List.mem_append.mp hc with hc | hc
  · exact (List.pairwise_append.mp h).2.2 c hc _ (List.mem_singleton_self _)
  · exact Nat.le_of_eq (congrArg f (List.mem_singleton.mp hc))

theorem mem_allLines (ln : PlatformLine) : ln ∈ allLines := by cases ln <;> decide

theorem inWindow_iff {z : Zones} {x : Int} : z.inWindow x = true ↔ z.a ≤ x ∧ x < z.x + z.o := decide_eq_true_iff

theorem seed_outside {z : Zones} {x : Int} (h : x < z.a ∨ z.x + z.o ≤ x) : z.seed x = none := by
  refine if_neg fun hw => ?_
  have hin := inWindow_iff.mp hw
  omega

theorem seed_inside {z : Zones} {x : Int} (ha : z.a ≤ x) (hx : x < z.x + z.o) :
    ∃ ln, z.seed x = some ln ∧ z.line ln ≤ x ∧ ∀ m, z.line m ≤ x → lineRank (some m) ≤ lineRank (some ln) := by
  have hmem (m : PlatformLine) : m ∈ (allLines.filter fun ln => decide (z.line ln ≤ x)) ↔ z.line m ≤ x := by
    simp only [List.mem_filter, mem_allLines, true_and, decide_eq_true_iff]
  obtain ⟨ln, hlast, hin, hmax⟩ := getLast?_greatest (f := fun ln => lineRank (some ln))
    (allLines_ascending.filter fun ln => decide (z.line ln ≤ x)) ((hmem .a).mpr ha)
  exact ⟨ln, (if_pos (inWindow_iff.mpr ⟨ha, hx⟩)).trans hlast, (hmem ln).mp hin, fun m hm => hmax m ((hmem m).mpr hm)⟩

theorem seedRecords_record (h : 1 ≤ k ∧ k ≤ s.cfs.geometry.n) :
    (seedRecords s).passRecord k = s.cfs.zones.seed (s.cfs.geometry.position s.ptr.angle k) := by
  obtain ⟨h1, hn⟩ := h
  obtain ⟨k, rfl⟩ := Nat.exists_eq_add_of_le' h1
  simp [seedRecords, State.passRecord, nth, List.getElem?_append_left, Geometry.cabins, Nat.lt_of_succ_le hn]

theorem seedAll_config (h : s.cfs.device = .config) : seedAll s = seedRecords s :=
  if_neg fun hs => Device.noConfusion (h.symm.trans hs)

theorem seedAll_service (h : s.cfs.device = .service) : seedAll s =
    slowChoose ((List.range s.cfs.geometry.n).foldl (fun x k => seedPhase (k + 1) x) (seedRecords s)) := by
  refine (if_pos h).trans (congrArg slowChoose ?_)
  exact List.foldl_map

/-! ### A cabin's phase (R99) -/

/-- The lines whose effects a seeded record r has yet to bring to a cabin in phase ph (R99). -/
def linesDue (ph : Phase) (r : Option PlatformLine) : List PlatformLine :=
  allLines.filter fun ln => ph.impliedRank < lineRank (some ln) && lineRank (some ln) ≤ seededRank r

theorem seedPhase_crosses {ph : Phase} {r : Option PlatformLine} (hp : (s.cabin k).phase = ph) (hr : s.passRecord k = r)
    (hn : ¬(ph = .away ∨ ph = .arriving)) : seedPhase k s = (linesDue ph r).foldl (fun s ln => crossEffect k ln s) s := by
  subst hp hr
  exact if_neg hn

theorem linesDue_inside {ph : Phase} {ln : PlatformLine} (h : lineRank (some ln) ≤ ph.impliedRank) :
    linesDue ph (some ln) = [] := by
  refine List.filter_eq_nil_iff.mpr fun m _ hm => ?_
  have hseeded : seededRank (some ln) = lineRank (some ln) := rfl
  simp only [Bool.and_eq_true, decide_eq_true_eq, hseeded] at hm
  omega

theorem seedPhase_a (hk : s.hasCabin k) (hp : (s.cabin k).phase = .away ∨ (s.cabin k).phase = .arriving)
    (hr : s.passRecord k = some .a) : (seedPhase k s).cabin k = { s.cabin k with phase := .arriving, cleanPass := true } := by
  have h : seedPhase k s = setCabin k { (setPhase k .arriving s).cabin k with cleanPass := true } (setPhase k .arriving s) := by
    simp only [seedPhase, hp, hr, ↓reduceIte]
  have hs := (Records.begin (.refl s) k).setPhase hk (ph := .arriving) Phase.noConfusion
  rw [h, (hs.setCabin hk _).cabin hk, hs.cabin hk]

theorem seedPhase_passing (hk : s.hasCabin k) (hp : (s.cabin k).phase = .away ∨ (s.cabin k).phase = .arriving)
    (hr : s.passRecord k = some .d ∨ s.passRecord k = some .l ∨ s.passRecord k = some .c) :
    ((seedPhase k s).node k).pending = some .close ∧ (seedPhase k s).cabin k =
      { s.cabin k with phase := .passing, lastPass := some (.notReleased .start), cleanPass := false } := by
  have h : seedPhase k s = queueCommand k .close (makePassing k .start s) := by
    rcases hr with hr | hr | hr <;> simp only [seedPhase, hp, hr, ↓reduceIte]
  have hs := ((Records.begin (.refl s) k).makePassing hk .start).queueCommand hk .close
  rw [h, hs.cabin hk, hs.node hk]
  exact ⟨rfl, rfl⟩

theorem seedPhase_x (hp : (s.cabin k).phase = .away ∨ (s.cabin k).phase = .arriving)
    (hr : s.passRecord k = some .x ∨ s.passRecord k = none) :
    seedPhase k s = if (s.cabin k).phase = .arriving then depart k s else s := by
  rcases hr with hr | hr <;> simp only [seedPhase, hp, hr, ↓reduceIte]

/-! ### The crossings of a seeding (R79, R99) -/

theorem hasCabin_of_event (h : Event s t) (hk : s.hasCabin k) : t.hasCabin k := by
  have hnodes := congrArg List.length h.heard
  rw [List.length_map, List.length_map] at hnodes
  rw [State.hasCabin, h.cabins, hnodes]
  exact hk

/-- The close of a loading cabin. -/
theorem crossing_c_closes (hk : s.hasCabin k) (hp : (s.cabin k).phase = .loading) :
    ((crossing k .c s).cabin k).phase = .closing ∧ ((crossing k .c s).node k).pending = some .close := by
  obtain ⟨r, -, h⟩ := (Records.begin (.refl s) k).closeCabin hk
  rw [crossing_c_loading hp, h.cabin hk, h.node hk]
  exact ⟨rfl, rfl⟩

theorem crossing_l_loading (hk : s.hasCabin k) (hp : (s.cabin k).phase = .unloading) :
    ((crossing k .l s).cabin k).phase = .loading := by
  obtain ⟨u, m, hu, h⟩ := changeToLoading_eq hk
  have hin := h.hasCabin hk
  rw [crossing_l hp, hu, evaluate_phase ⟨hin.1, hin.2.1⟩, h.cabin hk]

theorem seedPhase_inside {ph : Phase} {ln : PlatformLine} (hp : (s.cabin k).phase = ph) (hr : s.passRecord k = some ln)
    (hn : ¬(ph = .away ∨ ph = .arriving)) (h : lineRank (some ln) ≤ ph.impliedRank) : seedPhase k s = s := by
  rw [seedPhase_crosses hp hr hn, linesDue_inside h, List.foldl_nil]

/-- L and C have nothing for a cabin that passes (R79). -/
theorem crossEffect_passing {ln : PlatformLine} (hp : (s.cabin k).phase = .passing) (h : ln = .l ∨ ln = .c) :
    crossEffect k ln s = s := by
  rcases h with rfl | rfl <;> simp only [crossEffect, hp]

/-- A cabin past the door release whose record is in the window stays as it is (R99). -/
theorem seedPhase_closing (hp : (s.cabin k).phase = .closing ∨ (s.cabin k).phase = .doorHold ∨ (s.cabin k).phase = .passing)
    (hx : s.passRecord k ≠ some .x) (hn : s.passRecord k ≠ none) : seedPhase k s = s := by
  obtain ⟨ln, hr⟩ := Option.ne_none_iff_exists'.mp hn
  have hrank : lineRank (some ln) ≤ 4 := by
    cases ln with
    | x => exact absurd hr hx
    | _ => decide
  rcases hp with hp | hp | hp
  · exact seedPhase_inside hp hr nofun hrank
  · exact seedPhase_inside hp hr nofun hrank
  · have hl := crossEffect_passing hp (.inl rfl)
    have hc := crossEffect_passing hp (.inr rfl)
    cases ln with
    | a => exact seedPhase_inside hp hr nofun (by decide)
    | d => exact seedPhase_inside hp hr nofun (by decide)
    | l => exact (seedPhase_crosses hp hr nofun).trans hl
    | c => exact (seedPhase_crosses hp hr nofun).trans ((congrArg (crossEffect k .c) hl).trans hc)
    | x => exact absurd hr hx

theorem seedPhase_closing_x (hp : (s.cabin k).phase = .closing ∨ (s.cabin k).phase = .doorHold ∨ (s.cabin k).phase = .passing)
    (hr : s.passRecord k = some .x ∨ s.passRecord k = none) : seedPhase k s = crossing k .x s := by
  have hcross {ph : Phase} (hp : (s.cabin k).phase = ph) (hn : ¬(ph = .away ∨ ph = .arriving)) {l : List PlatformLine}
      (h : ∀ r, r = some .x ∨ r = none → linesDue ph r = l) : seedPhase k s = l.foldl (fun s ln => crossEffect k ln s) s := by
    rw [seedPhase_crosses hp rfl hn, h _ hr]
  rcases hp with hp | hp | hp
  · exact hcross hp nofun (l := [.x]) fun r hr => by rcases hr with rfl | rfl <;> rfl
  · exact hcross hp nofun (l := [.x]) fun r hr => by rcases hr with rfl | rfl <;> rfl
  · refine (hcross hp nofun (l := [.l, .c, .x]) fun r hr => by rcases hr with rfl | rfl <;> rfl).trans ?_
    have hl := crossEffect_passing hp (.inl rfl)
    have hc := crossEffect_passing hp (.inr rfl)
    exact congrArg (crossEffect k .x) ((congrArg (crossEffect k .c) hl).trans hc)

/-! ### The ring over a seeding (R63, R99) -/

theorem makePassing_ringKept (k : Nat) (x : SubCause) (s : State) : RingKept s (makePassing k x s) :=
  setPhase_ringKept k .passing s

theorem giveUpMove_cru (k : Nat) (s : State) : (giveUpMove k s).cru = s.cru := (giveUpMove_beside k s).cru

theorem crossX_cru (k : Nat) (s : State) : (crossX k s).cru = s.cru := by
  unfold crossX
  split
  · rfl
  · exact depart_cru k s

theorem closeCabin_ringKept (k : Nat) (s : State) : RingKept s (closeCabin k s) := by
  have hphase : RingKept s (setPhase k .closing (queueCommand k .close (lockGate k s))) :=
    .trans (t := queueCommand k .close (lockGate k s)) rfl (setPhase_ringKept ..)
  refine hphase.trans (.of_cru ((giveUpMove_cru ..).trans ?_))
  split <;> rfl

theorem closeUnloading_ringKept (k : Nat) (s : State) : RingKept s (closeUnloading k s) :=
  RingKept.trans (.of_cru (settleCabins_beside s (setCabin k { s.cabin k with manifest := none } s)).cru) (closeCabin_ringKept ..)

theorem changeToLoading_ringKept (k : Nat) (s : State) : RingKept s (changeToLoading k s) :=
  RingKept.trans (setPhase_ringKept k .loading (setCabin k { s.cabin k with manifest := none } s))
    (.of_cru ((evaluate_cru ..).trans (settleCabins_beside ..).cru))

theorem crossD_ringKept (k : Nat) (s : State) : RingKept s (crossD k s) := by
  have habort : RingKept s (abortTrial .doorRelease s) := .of_cru (abortTrial_beside .doorRelease s).cru
  cases h : s.releaseFailure k with
  | none =>
    rw [crossD_released h]
    exact habort.trans (.trans (t := limitInsert (.door k) _ 0 true _ _) rfl (.trans (setPhase_ringKept k .unloading _) rfl))
  | some x =>
    rw [crossD_refused h]
    refine habort.trans ((makePassing_ringKept k x _).trans (.of_cru ((giveUpMove_cru ..).trans ?_)))
    split
    · exact report_cru ..
    · rfl

theorem crossEffect_ringKept (k : Nat) (ln : PlatformLine) (s : State) : RingKept s (crossEffect k ln s) := by
  unfold crossEffect
  split
  · exact crossD_ringKept k s
  · exact changeToLoading_ringKept k s
  · exact closeCabin_ringKept k s
  · exact closeUnloading_ringKept k s
  · exact .of_cru (crossX_cru k s)
  · exact .of_cru (crossX_cru k s)
  · exact .of_cru (crossX_cru k s)
  · exact (closeCabin_ringKept k s).trans (.of_cru (crossX_cru ..))
  · exact (closeCabin_ringKept k s).trans (.of_cru (crossX_cru ..))
  · exact (makePassing_ringKept k .position s).trans (.of_cru (crossX_cru ..))
  · exact .of_cru rfl

theorem RingKept.foldl {α : Type} (f : State → α → State) (hf : ∀ s a, RingKept s (f s a)) (l : List α) :
    ∀ s, RingKept s (l.foldl f s) := by
  induction l with
  | nil => exact fun _ => .of_cru rfl
  | cons a l ih => exact fun s => (hf s a).trans (ih _)

theorem seedPhase_ringKept (k : Nat) (s : State) : RingKept s (seedPhase k s) := by
  unfold seedPhase
  dsimp only
  split
  · split
    · exact setPhase_ringKept k .arriving s
    · exact (makePassing_ringKept k .start s).trans (setNode_ringKept ..)
    · exact (makePassing_ringKept k .start s).trans (setNode_ringKept ..)
    · exact (makePassing_ringKept k .start s).trans (setNode_ringKept ..)
    · split
      · exact .of_cru (depart_cru k s)
      · exact .of_cru rfl
    · split
      · exact .of_cru (depart_cru k s)
      · exact .of_cru rfl
  · exact .foldl _ (fun s ln => crossEffect_ringKept k ln s) _ s

theorem seedAll_ringKept (s : State) : RingKept s (seedAll s) := by
  have hphases (t : State) : RingKept t (seedPhases t) :=
    RingKept.trans (.foldl _ (fun s k => seedPhase_ringKept k s) _ t) (.of_cru (slowChoose_beside _).cru)
  unfold seedAll
  dsimp only
  split
  · exact hphases (seedRecords s)
  · exact .of_cru rfl

theorem beginTransaction_running (s : State) : (beginTransaction s).cru.running = s.cru.running := by
  have htaken (k : Nat) : (s.commandTaken k).cru.running = s.cru.running :=
    (congrArg Cru.running (commandTaken_pointers s k)).trans rfl
  by_cases hr : s.cru.nextSlot = .round ∨ s.windowOrder = []
  · rw [beginTransaction_round hr]
    exact htaken _
  · cases horder : s.windowOrder with
    | nil => exact absurd (.inr horder) hr
    | cons k r =>
      have hs : s.cru.nextSlot = .window := by
        cases hs : s.cru.nextSlot with
        | window => rfl
        | round => exact absurd (.inl hs) hr
      rw [beginTransaction_window hs horder]
      exact htaken k

end Seeding

end Sys2Proof.Machine

/-! Proofs: COMMISSION and what it seeds (R183 to R186, R99). -/

namespace Sys2Proof.Machine

section Commission

variable {s t : State} {f : Frame} {p : Port}

/-! ### The nine checks (R183) -/

theorem manifestsAgree_iff : manifestsAgree s = true ↔
    (∀ c ∈ s.bsq.cabins, c.manifest = none) ∨ s.cfs.commissioned = some s.cfs.geometry := by
  simp only [manifestsAgree, Bool.or_eq_true, List.all_eq_true, Option.isNone_iff_eq_none, beq_iff_eq]

theorem commissionCheck_congr (hc : t.cfs = s.cfs) (hb : t.bsq = s.bsq) (n : Nat) : commissionCheck t n = commissionCheck s n := by
  unfold commissionCheck manifestsAgree
  rw [hc, hb]

theorem commissionCheck_beyond {n : Nat} (h : n = 0 ∨ 10 ≤ n) : commissionCheck s n = true := by
  rcases h with rfl | h
  · rfl
  · obtain ⟨m, rfl⟩ := Nat.exists_eq_add_of_le' h
    rfl

theorem commissionFailure_eq_some {n : Nat} (hn : commissionCheck s n = false) (h : ∀ i < n, commissionCheck s i = true) :
    commissionFailure s = some n := by
  have hrange : 1 ≤ n ∧ n ≤ 9 := by
    refine Decidable.byContradiction fun hr => ?_
    exact Bool.noConfusion (hn.symm.trans (commissionCheck_beyond (by omega)))
  refine List.find?_range'_eq_some (s := 1) (n := 9) |>.mpr ⟨by rw [hn]; rfl, List.mem_range'_1.mpr (by omega), fun j _ hj => ?_⟩
  rw [h j hj]
  rfl

theorem commissionFailure_eq_none (h : ∀ n, commissionCheck s n = true) : commissionFailure s = none :=
  List.find?_eq_none.mpr fun n _ => by rw [h n]; nofun

/-! ### The commission (R186) -/

/-- s as the ring starts: every node UNKNOWN, the slots from the first (R63, R68). -/
def State.ringReady (s : State) : State :=
  { s with cru :=
    { running := true, flight := s.cru.flight, windowPointer := none, roundPointer := s.cfs.geometry.n, nextSlot := .window,
      nodes := s.cru.nodes.map fun n => { n with state := .unknown } } }

theorem startRing_eq (h : s.cfs.device = .service) :
    startRing s = if s.cru.flight = none then endTransaction s.ringReady else s.ringReady := by
  rw [endTransaction_service (s := s.ringReady) h]
  cases hf : s.cru.flight with
  | none => simp only [startRing, State.ringReady, hf, Option.isNone_none, ↓reduceIte]
  | some x => simp only [startRing, State.ringReady, hf, Option.isNone_some, reduceCtorEq, Bool.false_eq_true, ↓reduceIte]

theorem startRing_rest (h : s.cfs.device = .service) :
    startRing s = { s with cru := (startRing s).cru } ∧ (startRing s).cru.running = true := by
  rw [startRing_eq h, endTransaction_service (s := s.ringReady) h]
  split
  · have hrest := (endTransaction_rest s.ringReady).1
    rw [endTransaction_service (s := s.ringReady) h] at hrest
    exact ⟨hrest, beginTransaction_running _⟩
  · exact ⟨rfl, rfl⟩

/-- s commissioned, but for the seeding (R186). -/
def State.commissioned (s : State) : State := startPresence (startRing (commissionBalance (commissionStore s)))

theorem commissionBalance_event (s : State) :
    Event { s with bsq := { s.bsq with angles := some (angleTable s.cfs.geometry.n) } } (commissionBalance s) := formSums_event _

theorem commissioned_fields (s : State) :
    s.commissioned.cfs = { s.cfs with device := .service, commissioned := some s.cfs.geometry } ∧
    s.commissioned.roc.aEff = s.cfs.speeds.aCfg ∧ s.commissioned.cru.running = true ∧
    s.commissioned.wmn = s.wmn ∧ s.commissioned.ptr = s.ptr ∧
    ∀ p, (s.port p).presenceTime ≠ 0 →
      (s.commissioned.port p).presence = some { elapsed := 0, time := (s.port p).presenceTime } := by
  have hbalance := commissionBalance_event (commissionStore s)
  have hcfs := hbalance.cfs
  have hservice : (commissionBalance (commissionStore s)).cfs.device = .service := congrArg Cfs.device hcfs
  obtain ⟨hrest, hrunning⟩ := startRing_rest hservice
  refine ⟨?_, ?_, hrunning, ?_, ?_, fun p hp => ?_⟩
  · exact (congrArg State.cfs hrest).trans hcfs
  · exact (congrArg (fun t => t.roc.aEff) hrest).trans (congrArg (fun k => k.2.1) hbalance.kept)
  · exact (congrArg State.wmn hrest).trans hbalance.wmn
  · exact (congrArg State.ptr hrest).trans hbalance.ptr
  · obtain ⟨x, o, l, hport⟩ := hbalance.effect.port_eq p
    have hstart : s.commissioned.port p = (PortState.presenceStart { s.port p with transmitter := x, outbox := o, noticeLost := l }) := by
      have hsame : (startRing (commissionBalance (commissionStore s))).port p = _ := (congrArg (fun t => t.port p) hrest).trans hport
      cases p <;> exact congrArg PortState.presenceStart hsame
    rw [hstart]
    exact congrArg PortState.presence (if_neg hp)

theorem seedAll_event (s : State) : Event (seedRecords s) (seedAll s) := Event.ite (seedPhases_event _) (.refl _)

theorem commission_eq (s : State) : commission s = if s.ptr.referenced = true then seedAll s.commissioned else s.commissioned :=
  if_iff_congr (by rw [← (commissioned_fields s).2.2.2.2.1]; rfl) rfl rfl

theorem commission_fields (s : State) :
    (commission s).cfs = { s.cfs with device := .service, commissioned := some s.cfs.geometry } ∧
    (commission s).roc.aEff = s.cfs.speeds.aCfg ∧ (commission s).cru.running = true ∧
    (commission s).wmn = s.wmn ∧ (commission s).ptr.angle = s.ptr.angle ∧ (commission s).ptr.referenced = s.ptr.referenced ∧
    ∀ p, (s.port p).presenceTime ≠ 0 →
      ((commission s).port p).presence = some { elapsed := 0, time := (s.port p).presenceTime } := by
  obtain ⟨hcfs, haEff, hrunning, hwmn, hptr, hport⟩ := commissioned_fields s
  rw [commission_eq]
  split
  · have hseed := seedAll_event s.commissioned
    refine ⟨hseed.cfs.trans hcfs, ?_, ?_, hseed.wmn.trans hwmn, ?_, ?_, fun p hp => ?_⟩
    · exact (congrArg (fun k => k.2.1) hseed.kept).trans haEff
    · exact (congrArg Cru.running (seedAll_ringKept s.commissioned)).trans hrunning
    · exact (congrArg Ptr.angle hseed.ptr).trans (congrArg Ptr.angle hptr :)
    · exact (congrArg Ptr.referenced hseed.ptr).trans (congrArg Ptr.referenced hptr :)
    · obtain ⟨x, o, l, hq⟩ := hseed.effect.port_eq p
      rw [hq]
      exact hport p hp
  · exact ⟨hcfs, haEff, hrunning, hwmn, congrArg Ptr.angle hptr, congrArg Ptr.referenced hptr, hport⟩

theorem taken_presenceTime (p q : Port) (f : Frame) (s : State) :
    ((taken p f s).port q).presenceTime = (s.port q).presenceTime := by
  obtain ⟨x, l, r, hq, -⟩ := taken_ports p q f s
  rw [hq]

theorem answerCommission_refused {n : Nat} (hd : s.cfs.device = .config) (h : commissionFailure s = some n) :
    answerCommission s = .refused .configInvalid n := by
  simp only [answerCommission, hd, h, reduceCtorEq, ↓reduceIte]

theorem answerCommission_accepted (hd : s.cfs.device = .config) (h : commissionFailure s = none) :
    answerCommission s = .accepted (be1 2 ++ be4 s.cfs.clock) (commission s) := by
  have hcfs := (commission_fields s).1
  have hpayload : be1 (commission s).cfs.device.code ++ be4 (commission s).cfs.clock = be1 2 ++ be4 s.cfs.clock := by
    rw [hcfs]
    rfl
  simp only [answerCommission, hd, h, reduceCtorEq, ↓reduceIte]
  rw [hpayload]

end Commission

/-- Settles O40, by the nine checks, by the steps of the commission, and by the lines that a seeded record has yet to bring
to a cabin in its phase. -/
theorem commissionEntersService : Obligations.CommissionEntersService := by
  unfold Obligations.CommissionEntersService
  refine ⟨fun tag s hfree => ?_, fun s => ?_, fun k s h1 hcabins hnodes => ?_⟩
  · intro f t g z v b passes
    have hchecks (n : Nat) : commissionCheck (taken .p1 f s) n = true ↔ passes n := by
      rw [commissionCheck_congr (taken_cfs ..) (taken_bsq ..)]
      match n with
      | 1 => exact decide_eq_true_iff
      | 2 => exact decide_eq_true_iff
      | 3 => exact decide_eq_true_iff.trans ⟨fun ⟨a, b, c, d, e, f⟩ => ⟨b, a, f, e, d, c⟩, fun ⟨a, b, c, d, e, f⟩ => ⟨b, a, f, e, d, c⟩⟩
      | 4 => exact decide_eq_true_iff
      | 5 => exact decide_eq_true_iff
      | 6 => exact decide_eq_true_iff
      | 7 => exact decide_eq_true_iff
      | 8 => exact decide_eq_true_iff
      | 9 => exact manifestsAgree_iff
      | 0 => exact iff_of_true rfl trivial
      | n + 10 => exact iff_of_true rfl trivial
    have hcfs : (taken .p1 f s).cfs = s.cfs := taken_cfs ..
    refine ⟨fun hd => ?_, fun n hd hbelow hn => ?_, fun hd hall => ?_⟩
    · refine request_refuses hfree rfl ?_
      exact if_pos ((congrArg Cfs.device hcfs).trans hd)
    · refine request_refuses hfree rfl (answerCommission_refused ((congrArg Cfs.device hcfs).trans hd) ?_)
      exact commissionFailure_eq_some (Bool.eq_false_iff.mpr fun hc => hn ((hchecks n).mp hc)) fun i hi => (hchecks i).mpr (hbelow i hi)
    · obtain ⟨htcfs, haEff, hrunning, hwmn, hangle, href, hport⟩ := commission_fields (taken .p1 f s)
      have hpresence (p : Port) (hp : (s.port p).presenceTime ≠ 0) :
          (t.port p).presence = some { elapsed := 0, time := (s.port p).presenceTime } := by
        rw [← taken_presenceTime .p1 p f s] at hp ⊢
        exact hport p hp
      rw [hcfs] at htcfs haEff
      refine ⟨?_, congrArg Cfs.device htcfs, congrArg Cfs.commissioned htcfs, haEff, hrunning, hwmn.trans (taken_wmn ..),
        hangle.trans (congrArg Ptr.angle (taken_ptr ..)), href.trans (congrArg Ptr.referenced (taken_ptr ..)),
        hpresence .p1, hpresence .p2, ?_⟩
      · refine request_accepts hfree rfl ?_
        refine (answerCommission_accepted ((congrArg Cfs.device hcfs).trans hd)
          (commissionFailure_eq_none fun n => (hchecks n).mpr (hall n))).trans ?_
        rw [hcfs]
      · intro u summed ready rung
        have hsummed : commissionBalance (commissionStore u) = summed := by
          simp only [commissionBalance, commissionStore, summed, u, taken_cfs, taken_roc, taken_bsq, v, g]
        have hready : summed.ringReady = ready := by
          have hcru : summed.cru = s.cru := (formSums_cru _).trans (taken_cru .p1 f s)
          have hn : summed.cfs.geometry = g := (congrArg Cfs.geometry (formSums_event _).cfs).trans rfl
          simp only [State.ringReady, ready, hcru, hn]
        have hservice : summed.cfs.device = .service := (congrArg Cfs.device (formSums_event _).cfs).trans rfl
        have hrung : startRing summed = rung := by
          rw [startRing_eq hservice, hready, (formSums_cru _ : summed.cru = _), taken_cru]
        have hcommissioned : u.commissioned = startPresence rung := by
          rw [State.commissioned, hsummed, hrung]
        have hreferenced : u.ptr.referenced = s.ptr.referenced := congrArg Ptr.referenced (taken_ptr ..)
        refine ⟨startPresence rung, rfl, fun hr => ?_, fun hr => ?_⟩
        · rw [← hcommissioned]
          exact (commission_eq u).trans (if_neg (by rw [hreferenced, hr]; exact Bool.false_ne_true))
        · rw [← hcommissioned]
          exact (commission_eq u).trans (if_pos (hreferenced.trans hr))
  · intro g z seeded
    refine ⟨rfl, fun k h1 hn => ?_, seedAll_config, seedAll_service⟩
    intro x
    have hrecord : seeded.passRecord k = z.seed x := seedRecords_record ⟨h1, hn⟩
    rw [hrecord]
    exact ⟨seed_outside, seed_inside⟩
  · intro r ph t
    have hk : s.hasCabin k := ⟨h1, hcabins, hnodes⟩
    refine ⟨fun hp => ⟨seedPhase_a hk hp, seedPhase_passing hk hp, seedPhase_x hp⟩, fun hrest => ?settled, fun hp hr => ?l, fun hp hr => ?lc,
      fun hp hr => ?lcx, fun hp hr => ?c, fun hp hr => ?cx, fun hp hr => ?closes,
      fun hp hr => ?x⟩
    case settled =>
      rcases hrest with ⟨hp, hr⟩ | ⟨hp, hr⟩ | ⟨hp, hx, hn⟩
      · rcases hr with hr | hr <;> exact seedPhase_inside hp hr nofun (by decide)
      · rcases hr with hr | hr | hr <;> exact seedPhase_inside hp hr nofun (by decide)
      · exact seedPhase_closing hp hx hn
    case l => exact seedPhase_crosses hp hr nofun
    case lc => exact seedPhase_crosses hp hr nofun
    case lcx =>
      rcases hr with hr | hr
      · exact seedPhase_crosses hp hr nofun
      · exact seedPhase_crosses hp hr nofun
    case c => exact seedPhase_crosses hp hr nofun
    case cx =>
      rcases hr with hr | hr
      · exact seedPhase_crosses hp hr nofun
      · exact seedPhase_crosses hp hr nofun
    case closes =>
      rcases hp with hp | hp
      · have ht : t = crossing k .c (crossing k .l s) := seedPhase_crosses hp hr nofun
        rw [ht]
        exact crossing_c_closes (hasCabin_of_event (crossing_event ..) hk) (crossing_l_loading hk hp)
      · have ht : t = crossing k .c s := seedPhase_crosses hp hr nofun
        rw [ht]
        exact crossing_c_closes hk hp
    case x => exact seedPhase_closing_x hp hr

end Sys2Proof.Machine

/-! Proofs: what a control update leaves of the Position Tracker's reading, and its order (R3, R11, R12, R38). -/

namespace Sys2Proof.Machine

section Sensed

variable {s t : State}

/-! ### The blocks that only the Position Tracker's part writes -/

/-- What the parts of an update after the settling leave but for the pass records. -/
def State.tracked (s : State) : Ptr × Wmn × Pim × Cfs × TimeBase := ({ s.ptr with passRecords := [] }, s.wmn, s.pim, s.cfs, s.time)

/-- What the parts of an update after the crossings leave. -/
def State.sensed (s : State) : Ptr × Wmn × Pim × Cfs × TimeBase := (s.ptr, s.wmn, s.pim, s.cfs, s.time)

theorem Event.sensed (h : Event s t) : t.sensed = s.sensed := by
  simp only [State.sensed, h.ptr, h.wmn, h.pim, h.cfs, h.time]

theorem tracked_of_sensed (h : t.sensed = s.sensed) : t.tracked = s.tracked :=
  congrArg (fun x => ({ x.1 with passRecords := [] }, x.2)) h

theorem Event.tracked (h : Event s t) : t.tracked = s.tracked := tracked_of_sensed h.sensed

/-! ### Up to the crossings -/

theorem seedAll_tracked (s : State) : (seedAll s).tracked = s.tracked := (seedAll_event s).tracked

theorem clearLeavers_tracked (s : State) : (clearLeavers s).tracked = s.tracked := by
  refine foldl_keeps State.tracked _ (fun t k => ?_) _ s
  split <;> rfl

theorem noteSlowCrossed_tracked (k : Nat) (ln : PlatformLine) (s : State) : (noteSlowCrossed k ln s).tracked = s.tracked := by
  unfold noteSlowCrossed
  split <;> rfl

theorem raiseCrossing_tracked (k : Nat) (s : State) (ln : PlatformLine) : (raiseCrossing k s ln).tracked = s.tracked := by
  unfold raiseCrossing
  split
  · exact (crossing_event ..).tracked.trans (noteSlowCrossed_tracked ..)
  · rfl

theorem raiseCrossings_tracked (before : Nat) (s : State) : (raiseCrossings before s).tracked = s.tracked :=
  foldl_keeps State.tracked _ (fun t k => foldl_keeps State.tracked _ (fun t ln => raiseCrossing_tracked k t ln) _ t) _ s

theorem passUpdate_tracked (before : Ptr) (s : State) : (passUpdate before s).tracked = s.tracked := by
  unfold passUpdate
  refine (clearLeavers_tracked _).trans ?_
  split
  · exact seedAll_tracked s
  · split
    · exact raiseCrossings_tracked _ s
    · rfl

/-! ### After the crossings -/

theorem overrunEntry_event (s : State) (e : LimitPoint) : Event s (overrunEntry s e) := by
  unfold overrunEntry
  split
  · exact .ite ((markOverrun_event ..).trans (report_event ..)) (.refl s)
  · exact .refl s
  · exact .refl s

theorem overrunCheck_event (s : State) : Event s (overrunCheck s) := .foldl _ overrunEntry_event _ s

theorem updateWheel_tracked (s : State) : (updateWheel s).tracked = (settleUpdate s).tracked :=
  (overrunCheck_event _).tracked.trans ((passUpdate_tracked ..).trans (encoderReports_event ..).tracked)

theorem enterStanding_sensed (v : Nat) (s : State) : (enterStanding v s).sensed = s.sensed :=
  (enterDoorHolds_event _ _).sensed

theorem brakedStep_sensed (s : State) : (brakedStep s).sensed = s.sensed := by
  unfold brakedStep
  dsimp only
  split
  · split <;> rfl
  · rfl

theorem trialStepUpdate_sensed (s : State) : (trialStepUpdate s).sensed = s.sensed := by
  unfold trialStepUpdate
  dsimp only
  split
  · exact enterStanding_sensed ..
  · rfl

theorem runningStep_sensed (s : State) : (runningStep s).sensed = s.sensed := by
  unfold runningStep
  dsimp only
  split
  · exact enterStanding_sensed ..
  · rfl

theorem standingStep_sensed (s : State) : (standingStep s).sensed = s.sensed := by
  unfold standingStep
  dsimp only
  split <;> rfl

theorem rotationStep_sensed (s : State) : (rotationStep s).sensed = s.sensed := by
  unfold rotationStep
  split
  · exact brakedStep_sensed s
  · rfl
  · split
    · exact trialStepUpdate_sensed s
    · exact runningStep_sensed s
  · exact standingStep_sensed s
  · rfl

theorem trackingCheck_sensed (b : Bool) (s : State) : (trackingCheck b s).sensed = s.sensed := by
  unfold trackingCheck
  dsimp only
  split
  · exact (report_event ..).sensed
  · rfl

theorem completeTrial_sensed (s : State) : (completeTrial s).sensed = s.sensed := by
  unfold completeTrial
  dsimp only
  refine (notify_event ..).sensed.trans ?_
  split
  · rfl
  · exact (report_event ..).sensed

theorem trialUpdate_sensed (d : Int) (s : State) : (trialUpdate d s).sensed = s.sensed := by
  unfold trialUpdate
  dsimp only
  split
  · split
    · exact completeTrial_sensed _
    · rfl
  · rfl

/-- The update after the Rotation Controller's step r: delta d, and whether a trial step was in force before the step. -/
def closeUpdate (d : Int) (trial : Bool) (r : State) : State := keepWord (moveUpdate (trialUpdate d (trackingCheck trial r)))

theorem closeUpdate_sensed (d : Int) (b : Bool) (r : State) : (closeUpdate d b r).sensed = r.sensed :=
  (moveUpdate_event _).sensed.trans ((trialUpdate_sensed ..).trans (trackingCheck_sensed ..))

theorem controlUpdate_eq (s : State) :
    controlUpdate s = closeUpdate s.ptr.delta (updateWheel s).roc.trialStep (rotationStep (updateWheel s)) := rfl

theorem controlUpdate_sensed (s : State) : (controlUpdate s).sensed = (updateWheel s).sensed :=
  (closeUpdate_sensed ..).trans (rotationStep_sensed _)

theorem controlUpdate_tracked (s : State) : (controlUpdate s).tracked = (settleUpdate s).tracked :=
  (tracked_of_sensed (controlUpdate_sensed s)).trans (updateWheel_tracked s)

/-- A reading of the Position Tracker that is not of the pass records is as the update settled it. -/
theorem controlUpdate_ptr {α : Type} (f : Ptr → α) (hf : ∀ p : Ptr, f { p with passRecords := [] } = f p) (s : State) :
    f (controlUpdate s).ptr = f (s.ptr.settled s.cfs.geometry s.cfs.speeds) := by
  rw [← hf, ← hf (s.ptr.settled ..)]
  exact congrArg (fun x => f x.1) (controlUpdate_tracked s)

end Sensed

/-! ### Measured speed and standstill (R11, R12) -/

section Reading

variable {p : Ptr}

theorem newHistory_short (h : p.history.length < 20) : p.newHistory = p.history ++ [p.delta] := by
  rw [Ptr.newHistory, Nat.sub_eq_zero_of_le (by omega), List.drop_zero]

theorem newHistory_full (h : p.history.length = 20) : p.newHistory = p.history.tail ++ [p.delta] := by
  rw [Ptr.newHistory, h, ← List.drop_one, List.drop_append_of_le_length (by omega)]

theorem newStandstill_moved (h : p.delta ≠ 0) : p.newZeroRun = 0 ∧ p.newStandstill = false := by
  simp [Ptr.newZeroRun, Ptr.newStandstill, h]

theorem newStandstill_still (h : p.delta = 0) : p.newZeroRun = min 10 (p.zeroRun + 1) ∧
    p.newStandstill = (p.standstill || decide (10 ≤ p.zeroRun + 1)) := by
  have hrun : p.newZeroRun = min 10 (p.zeroRun + 1) := if_pos h
  refine ⟨hrun, ?_⟩
  have hten : (p.newZeroRun == 10) = decide (10 ≤ p.zeroRun + 1) := by
    rw [hrun, Bool.eq_iff_iff, beq_iff_eq, decide_eq_true_eq]
    omega
  rw [Ptr.newStandstill, hten, h]
  rfl

end Reading

/-- Settles O12, from what the update settles and what its later parts leave. -/
theorem controlUpdateMeasuresSpeed : Obligations.ControlUpdateMeasuresSpeed := by
  unfold Obligations.ControlUpdateMeasuresSpeed
  intro s hrun hlength d
  have hread {α : Type} (f : Ptr → α) (hf : ∀ p : Ptr, f { p with passRecords := [] } = f p) := controlUpdate_ptr f hf s
  have hhistory : (controlUpdate s).ptr.history = s.ptr.newHistory := hread Ptr.history fun _ => rfl
  have hzero : (controlUpdate s).ptr.zeroRun = s.ptr.newZeroRun := hread Ptr.zeroRun fun _ => rfl
  have hstill : (controlUpdate s).ptr.standstill = s.ptr.newStandstill := hread Ptr.standstill fun _ => rfl
  refine ⟨_, exec_controlUpdate hrun, fun h => ?_, fun h => ?_, ?_, fun hd => ?_, fun hd => ?_⟩
  · rw [hhistory, newHistory_short h]
    rfl
  · rw [hhistory, newHistory_full h]
    rfl
  · rw [hhistory, List.sum_eq_foldl]
    exact hread Ptr.speed fun _ => rfl
  · rw [hzero, hstill]
    exact newStandstill_still hd
  · rw [hzero, hstill]
    exact newStandstill_moved hd

/-! ### The tracking check and the derived rows (R12, R38) -/

section Derived

variable {s w r : State}

theorem trackingMade_iff {b : Bool} : r.trackingMade b = true ↔
    (r.roc.rotation = .running ∨ r.roc.rotation = .standing) ∧ r.roc.grace = none ∧ b = false ∧ r.roc.trialStep = false := by
  simp only [State.trackingMade, Bool.and_eq_true, Bool.or_eq_true, beq_iff_eq, Option.isNone_iff_eq_none, Bool.not_eq_true',
    and_assoc]

theorem tracksOff_iff : tracksOff w r ↔ (r.trackingMade w.roc.trialStep && r.trackingOff) = true := by
  rw [Bool.and_eq_true, trackingMade_iff, State.trackingOff, decide_eq_true_eq, tracksOff]
  simp only [and_assoc]

theorem trackingDue_iff : r.trackingDue w.roc.trialStep = true ↔ tracksOff w r ∧ 19 ≤ r.roc.tracking := by
  rw [State.trackingDue, Bool.and_eq_true, ← tracksOff_iff, decide_eq_true_eq]
  exact and_congr_right fun _ => ⟨Nat.le_of_succ_le_succ, Nat.succ_le_succ⟩

theorem trackingCheck_due (h : r.trackingDue w.roc.trialStep = true) : trackingCheck w.roc.trialStep r =
    report .trackingError none { r with roc := { r.roc with tracking := 0 } } := if_pos h

theorem trackingCheck_on (h : ¬tracksOff w r) : trackingCheck w.roc.trialStep r = { r with roc := { r.roc with tracking := 0 } } := by
  refine (if_neg fun hd => h (trackingDue_iff.mp hd).1).trans ?_
  rw [if_neg (fun hm => h (tracksOff_iff.mpr hm))]

theorem trackingCheck_rises (h : tracksOff w r) (hlow : r.roc.tracking < 19) : trackingCheck w.roc.trialStep r =
    { r with roc := { r.roc with tracking := r.roc.tracking + 1 } } := by
  refine (if_neg fun hd => absurd (trackingDue_iff.mp hd).2 (by omega)).trans ?_
  rw [if_pos (tracksOff_iff.mp h)]

theorem delta_eq_zero_iff {p : Ptr} : p.delta = 0 ↔ p.counter = p.sample := by
  rw [Ptr.delta, countDiff, ← BitVec.toInt_zero (w := 32), BitVec.toInt_inj]
  exact ⟨fun h => by rw [← BitVec.sub_add_cancel p.counter p.sample, h, BitVec.zero_add], fun h => by rw [h, BitVec.sub_self]⟩

theorem standstillDue_iff : s.standstillDue = true ↔
    s.ptr.counter = s.ptr.sample ∧ 9 ≤ s.ptr.zeroRun ∧ s.ptr.standstill = false := by
  rw [State.standstillDue, Bool.and_eq_true, Bool.not_eq_true', ← delta_eq_zero_iff]
  by_cases hd : s.ptr.delta = 0
  · rw [(newStandstill_still hd).2, Bool.or_eq_true, decide_eq_true_eq]
    constructor
    · rintro ⟨hs, ht | hz⟩
      · exact Bool.noConfusion (hs.symm.trans ht)
      · exact ⟨hd, by omega, hs⟩
    · rintro ⟨-, hz, hs⟩
      exact ⟨hs, .inr (by omega)⟩
  · rw [(newStandstill_moved hd).2]
    exact ⟨fun h => Bool.noConfusion h.2, fun h => absurd h.1 hd⟩

theorem exec_standstill (s : State) :
    exec .standstill s = .next (unlessReset (fun s => if s.standstillDue then controlUpdate s else s) s) := rfl

theorem exec_trackingError (s : State) :
    exec .trackingError s = .next (unlessReset (fun s => if s.trackingErrorDue then controlUpdate s else s) s) := rfl

theorem exec_standstill_due (hrun : s.time.resetHeld = false) (h : s.standstillDue = true) :
    exec .standstill s = .next (controlUpdate s) := by
  rw [exec_standstill, unlessReset_running hrun, if_pos h]

theorem exec_standstill_idle (hrun : s.time.resetHeld = false) (h : ¬s.standstillDue = true) : exec .standstill s = .next s := by
  rw [exec_standstill, unlessReset_running hrun, if_neg h]

theorem exec_trackingError_due (hrun : s.time.resetHeld = false) (h : s.trackingErrorDue = true) :
    exec .trackingError s = .next (controlUpdate s) := by
  rw [exec_trackingError, unlessReset_running hrun, if_pos h]

theorem exec_trackingError_idle (hrun : s.time.resetHeld = false) (h : ¬s.trackingErrorDue = true) :
    exec .trackingError s = .next s := by
  rw [exec_trackingError, unlessReset_running hrun, if_neg h]

end Derived

/-- Settles O15: the update's order is its definition; the two rows are its moments. -/
theorem derivedUpdateCommandsRunUpdate : Obligations.DerivedUpdateCommandsRunUpdate := by
  unfold Obligations.DerivedUpdateCommandsRunUpdate
  intro s hrun w r checked
  have hdue : s.trackingErrorDue = true ↔ tracksOff w r ∧ 19 ≤ r.roc.tracking := trackingDue_iff (w := w) (r := r)
  refine ⟨exec_controlUpdate hrun, fun hc hz hs => ?_, fun h => ?_, fun ho hn => ?_, fun ho hn => ?_, fun ho => ?_⟩
  · refine ⟨_, exec_standstill_due hrun (standstillDue_iff.mpr ⟨hc, hz, hs⟩), exec_controlUpdate hrun, ?_⟩
    rw [controlUpdate_ptr Ptr.standstill fun _ => rfl]
    refine (newStandstill_still (delta_eq_zero_iff.mpr hc)).2.trans ?_
    rw [decide_eq_true (by omega), Bool.or_true]
  · refine exec_standstill_idle hrun fun hd => ?_
    obtain ⟨hc, hz, hs⟩ := standstillDue_iff.mp hd
    rcases h with h | h | h
    · exact h hc
    · omega
    · exact Bool.noConfusion (hs.symm.trans h)
  · exact ⟨trackingCheck_due (trackingDue_iff.mpr ⟨ho, hn⟩),
      (exec_trackingError_due hrun (hdue.mpr ⟨ho, hn⟩)).trans (exec_controlUpdate hrun).symm⟩
  · exact ⟨trackingCheck_rises ho hn, exec_trackingError_idle hrun fun hd => absurd (hdue.mp hd).2 (by omega)⟩
  · exact ⟨trackingCheck_on ho, exec_trackingError_idle hrun fun hd => ho (hdue.mp hd).1⟩

end Sys2Proof.Machine

/-! Proofs: what a chain of events does to the Rotation Controller, and when it may trip (R25, R138, R163, R164). -/

namespace Sys2Proof.Machine

/-! ### The Rotation Controller through a chain -/

/-- The Rotation Controller of t comes from that of s by changes of the limit points and of a_eff, and at most one trip. -/
def Wheeled (s t : State) : Prop := ∃ l a,
  t.roc = { s.roc with limits := l, aEff := a } ∨
    s.roc.rotation ≠ .tripped ∧ t.roc = { tripRoc s.roc with limits := l, aEff := a }

section Wheeled

variable {s t u : State} {C : FaultCode → Prop}

theorem tripRoc_with (r : Roc) (l : List LimitPoint) (a : Nat) :
    tripRoc { r with limits := l, aEff := a } = { tripRoc r with limits := l, aEff := a } := by
  cases h : brakeEnergised r.rotation with
  | true => rw [tripRoc_lifted h, tripRoc_lifted (r := { r with limits := l, aEff := a }) h]
  | false => rw [tripRoc_set h, tripRoc_set (r := { r with limits := l, aEff := a }) h]

theorem Wheeled.of_roc (h : t.roc = s.roc) : Wheeled s t := ⟨s.roc.limits, s.roc.aEff, .inl h⟩

theorem Wheeled.of_limits {l : List LimitPoint} (h : t.roc = { s.roc with limits := l }) : Wheeled s t := ⟨l, s.roc.aEff, .inl h⟩

theorem Wheeled.trans (h : Wheeled s t) (k : Wheeled t u) : Wheeled s u := by
  obtain ⟨l, a, h | ⟨hn, h⟩⟩ := h
  · obtain ⟨m, b, k | ⟨hn, k⟩⟩ := k
    · exact ⟨m, b, .inl (by rw [k, h])⟩
    · rw [h] at hn
      exact ⟨m, b, .inr ⟨hn, by rw [k, h, tripRoc_with]⟩⟩
  · obtain ⟨m, b, k | ⟨hn', -⟩⟩ := k
    · exact ⟨m, b, .inr ⟨hn, by rw [k, h]⟩⟩
    · exact absurd (by rw [h]; exact tripRoc_rotation _) hn'

/-- A tripped wheel is not tripped again. -/
theorem Wheeled.tripped (h : Wheeled s t) (hs : s.roc.rotation = .tripped) : ∃ l a, t.roc = { s.roc with limits := l, aEff := a } := by
  obtain ⟨l, a, h | ⟨hn, -⟩⟩ := h
  · exact ⟨l, a, h⟩
  · exact absurd hs hn

theorem Wheeled.stays_tripped (h : Wheeled s t) (hs : s.roc.rotation = .tripped) : t.roc.rotation = .tripped := by
  obtain ⟨_, _, ht⟩ := h.tripped hs
  rw [ht]
  exact hs

theorem Wheeled.moving (h : Wheeled s t) (ht : t.roc.rotation ≠ .tripped) : ∃ l a, t.roc = { s.roc with limits := l, aEff := a } := by
  obtain ⟨l, a, h | ⟨-, h⟩⟩ := h
  · exact ⟨l, a, h⟩
  · exact absurd (by rw [h]; exact tripRoc_rotation _) ht

theorem trip_wheeled (s : State) : Wheeled s (trip s) := by
  by_cases h : s.roc.rotation = .tripped
  · exact .of_roc (by rw [trip_tripped h])
  · exact ⟨(tripRoc s.roc).limits, (tripRoc s.roc).aEff, .inr ⟨h, by rw [trip_moving h]⟩⟩

theorem abortTrial_wheeled (c : TrialAbort) (s : State) : Wheeled s (abortTrial c s) := .of_roc (by rw [abortTrial_eq])

theorem endMoves_wheeled (c : MoveCause) (s : State) : Wheeled s (endMoves c s) := by
  obtain ⟨_, _, _, _, _, h, -⟩ := endMoves_fields c s
  exact .of_limits (by rw [h])

theorem handToWheel_wheeled (previous : Level) (s : State) : Wheeled s (handToWheel previous s) := by
  by_cases hsame : s.hlu.effective = previous
  · exact .of_roc (by rw [handToWheel_same hsame])
  by_cases hstop : s.hlu.effective = .stop
  · rw [handToWheel_stop hstop fun k => hsame (hstop.trans k.symm)]
    exact abortTrial_wheeled ..
  by_cases hpark : s.hlu.effective = .park
  · rw [handToWheel_park hpark fun k => hsame (hpark.trans k.symm)]
    exact (trip_wheeled s).trans ((endMoves_wheeled ..).trans (abortTrial_wheeled ..))
  · exact .of_roc (by rw [handToWheel_low hstop hpark])

theorem holdForm_wheeled (id : HoldId) (c : HoldChange) (v : Option Level) (l : List HoldEntry) (s : State) :
    Wheeled s (holdForm id c v l s) := .of_roc (by rw [holdForm_rest])

theorem bringHomeHandOver_wheeled (s : State) : Wheeled s (bringHomeHandOver s) :=
  bringHomeHandOver_induction (.of_roc rfl) (fun _ k e => k.trans (.of_roc (by rw [e]))) fun previous u k =>
    k.trans (handToWheel_wheeled previous u)

theorem bringHomeJudge_wheeled (s : State) : Wheeled s (bringHomeJudge s) := by
  unfold bringHomeJudge
  split
  · exact (holdForm_wheeled ..).trans ((handToWheel_wheeled ..).trans (.of_roc rfl))
  · exact (holdForm_wheeled ..).trans (handToWheel_wheeled ..)
  · exact .of_roc rfl

theorem holdRemove_wheeled (id : HoldId) (s : State) : Wheeled s (holdRemove id s) := by
  unfold holdRemove
  split
  · exact (holdForm_wheeled ..).trans ((handToWheel_wheeled ..).trans (bringHomeHandOver_wheeled _))
  · exact .of_roc rfl

theorem holdInsert_wheeled (id : HoldId) (v : Level) (s : State) : Wheeled s (holdInsert id v s) := by
  unfold holdInsert
  split
  · exact holdRemove_wheeled id s
  · exact (holdForm_wheeled ..).trans ((handToWheel_wheeled ..).trans (bringHomeHandOver_wheeled _))

theorem Plain.wheeled (h : Plain s t) : Wheeled s t := by
  obtain ⟨_, _, _, _, _, rfl⟩ := h
  exact .of_limits rfl

theorem report_wheeled (c : FaultCode) (k : Option Nat) (s : State) : Wheeled s (report c k s) := by
  cases hm : (s.bank c.bank).masks c with
  | true => exact .of_roc (by rw [report_masked k hm])
  | false =>
    obtain ⟨m, hplain, ⟨-, h⟩ | ⟨a, -, -, h⟩⟩ := report_shape k hm
    · rw [h]
      exact Wheeled.trans (t := setBank c.bank (s.reportedBank c k) s) (.of_roc rfl) hplain.wheeled
    · rw [h]
      exact Wheeled.trans (t := setBank c.bank (s.reportedBank c k) s) (.of_roc rfl) (hplain.wheeled.trans (holdInsert_wheeled ..))

theorem Chain.wheeled (h : Chain C s t) : Wheeled s t := by
  induction h with
  | plain h => exact h.wheeled
  | report k s _ => exact report_wheeled _ k s
  | balanceIn s => exact holdInsert_wheeled ..
  | balanceOut s => exact holdRemove_wheeled ..
  | bringHome s => exact bringHomeJudge_wheeled s
  | trans _ _ h k => exact h.trans k

end Wheeled

/-! ### The level PARK (R138) -/

section Park

variable {s t : State} {C : FaultCode → Prop} {l : List HoldEntry}

theorem Level.code_park {v : Level} (h : Level.park.code ≤ v.code) : v = .park := by
  revert h
  cases v <;> decide

theorem highestLevel_park : highestLevel l = .park ↔ ∃ e ∈ l, e.level = .park := by
  have rises (l : List HoldEntry) (a : Level) (h : l.foldl (fun v e => v.max e.level) a = .park) :
      a = .park ∨ ∃ e ∈ l, e.level = .park := by
    induction l generalizing a with
    | nil => exact .inl h
    | cons x xs ih =>
      rcases ih _ h with hx | ⟨e, he, hp⟩
      · have hmax := Level.code_max a x.level
        rw [show a.max x.level = .park from hx] at hmax
        rcases Nat.le_total a.code x.level.code with hle | hle
        · exact .inr ⟨x, List.mem_cons_self, Level.code_park (by rw [hmax]; exact Nat.max_le.mpr ⟨hle, Nat.le_refl _⟩)⟩
        · exact .inl (Level.code_park (by rw [hmax]; exact Nat.max_le.mpr ⟨Nat.le_refl _, hle⟩))
      · exact .inr ⟨e, List.mem_cons_of_mem _ he, hp⟩
  constructor
  · intro h
    exact (rises l .none h).resolve_left Level.noConfusion
  · rintro ⟨e, he, hp⟩
    exact Level.code_park (by rw [← hp]; exact code_le_highestLevel he)

/-- No entry of the set is at PARK. -/
def State.noPark (s : State) : Prop := ∀ e ∈ s.hlu.entries, e.level ≠ .park

theorem noPark_of_moving (h : Inner s) (hn : s.roc.rotation ≠ .tripped) : s.noPark := fun _ he hp =>
  hn (h.wheel.park (h.holds.effective.trans (highestLevel_park.mpr ⟨_, he, hp⟩)))

theorem handToWheel_roc (h : s.hlu.effective ≠ .park) (previous : Level) : (handToWheel previous s).roc = s.roc := by
  by_cases hsame : s.hlu.effective = previous
  · rw [handToWheel_same hsame]
  by_cases hstop : s.hlu.effective = .stop
  · rw [handToWheel_stop hstop fun k => hsame (hstop.trans k.symm), abortTrial_eq]
  · rw [handToWheel_low hstop h]

/-- A change of the set that leaves no entry at PARK leaves the Rotation Controller (R25). -/
theorem formed_noPark (hl : ∀ e ∈ l, e.level ≠ .park) (id : HoldId) (c : HoldChange) (v : Option Level) (previous : Level)
    (ns : List Notice) (hx : t = { holdForm id c v l s with lkp := (holdForm id c v l s).lkp.noticed ns }) :
    (handToWheel previous t).noPark ∧ (handToWheel previous t).roc = s.roc := by
  have hhlu : t.hlu = (holdForm id c v l s).hlu := by rw [hx]
  have hroc : t.roc = s.roc := by rw [hx, holdForm_rest]
  obtain ⟨he, heff, -⟩ := holdForm_hlu id c v l s
  rw [← hhlu] at he heff
  have hnot : t.hlu.effective ≠ .park := fun hp => by
    obtain ⟨e, hin, hpark⟩ := highestLevel_park.mp (heff.symm.trans hp)
    exact hl e hin hpark
  refine ⟨?_, (handToWheel_roc hnot previous).trans hroc⟩
  rw [State.noPark, (handToWheel_handOver previous t).hlu, he]
  exact hl

theorem placed_noPark (h : s.noPark) {e : HoldEntry} (he : e.level ≠ .park) : ∀ x ∈ placeEntry e s.hlu.entries, x.level ≠ .park := by
  intro x hx
  rcases mem_placeEntry hx with rfl | hx
  · exact he
  · exact h x hx

theorem filtered_noPark (h : s.noPark) (f : HoldEntry → Bool) : ∀ x ∈ s.hlu.entries.filter f, x.level ≠ .park :=
  fun x hx => h x (List.mem_filter.mp hx).1

theorem bringHomeHandOver_noPark (h : s.noPark) : (bringHomeHandOver s).noPark ∧ (bringHomeHandOver s).roc = s.roc := by
  cases hb : s.bringHome with
  | insert =>
    rw [bringHomeHandOver_insert hb]
    exact formed_noPark (placed_noPark h Level.noConfusion) _ _ _ _ [_] rfl
  | remove =>
    rw [bringHomeHandOver_remove hb]
    exact formed_noPark (filtered_noPark h _) _ _ _ _ [] rfl
  | leave =>
    rw [bringHomeHandOver_leave hb]
    exact ⟨h, rfl⟩

theorem bringHomeJudge_noPark (h : s.noPark) : (bringHomeJudge s).noPark ∧ (bringHomeJudge s).roc = s.roc := by
  unfold bringHomeJudge
  split
  · exact formed_noPark (t := holdFormInsert .boarding .stop s) (placed_noPark h Level.noConfusion) _ _ _ _ [] rfl
  · exact formed_noPark (filtered_noPark h _) _ _ _ _ [] rfl
  · exact ⟨h, rfl⟩

theorem holdRemove_noPark (h : s.noPark) (id : HoldId) : (holdRemove id s).noPark ∧ (holdRemove id s).roc = s.roc := by
  unfold holdRemove
  split
  · obtain ⟨hn, hroc⟩ := formed_noPark (s := s) (filtered_noPark h _) id .removal none s.hlu.effective [] rfl
    obtain ⟨hn', hroc'⟩ := bringHomeHandOver_noPark hn
    exact ⟨hn', hroc'.trans hroc⟩
  · exact ⟨h, rfl⟩

theorem holdInsert_noPark (h : s.noPark) (id : HoldId) {v : Level} (hv : v ≠ .park) :
    (holdInsert id v s).noPark ∧ (holdInsert id v s).roc = s.roc := by
  unfold holdInsert
  split
  · exact holdRemove_noPark h id
  · obtain ⟨hn, hroc⟩ := formed_noPark (s := s) (placed_noPark h (e := { id := id, level := v, time := s.cfs.clock }) hv)
      id (if (s.hold id).isSome then .replacement else .insertion) (some v) s.hlu.effective [] rfl
    obtain ⟨hn', hroc'⟩ := bringHomeHandOver_noPark hn
    exact ⟨hn', hroc'.trans hroc⟩

/-! ### Chains of codes without an action -/

theorem report_without_action_roc {c : FaultCode} (k : Option Nat) (s : State) (hc : c.action = none) :
    ∃ l, (report c k s).roc = { s.roc with limits := l } := by
  cases hm : (s.bank c.bank).masks c with
  | true => exact ⟨s.roc.limits, by rw [report_masked k hm]⟩
  | false =>
    obtain ⟨v, hn⟩ := reportNoticed_eq k c s
    have hplain (u : State) : Plain u (faultHandOver c k u) := by
      unfold faultHandOver
      split
      · exact cabinFault_plain ..
      · exact .refl u
    obtain ⟨_, _, _, _, l, h⟩ := hplain (s.reportNoticed c k)
    rw [report_without_action k hm hc, h, hn]
    exact ⟨l, rfl⟩

/-- No code of C has an action. -/
def Idle (C : FaultCode → Prop) : Prop := ∀ c, C c → c.action = none

/-- Codes without an action bring no entry at PARK, and trip nothing. -/
theorem Chain.noPark (hC : Idle C) (h : Chain C s t) (hs : s.noPark) :
    t.noPark ∧ ∃ l, t.roc = { s.roc with limits := l } := by
  induction h with
  | plain h =>
    obtain ⟨_, _, _, _, l, rfl⟩ := h
    exact ⟨hs, l, rfl⟩
  | report k s hc =>
    refine ⟨?_, report_without_action_roc k s (hC _ hc)⟩
    rw [State.noPark, report_hlu_without_action k s (hC _ hc)]
    exact hs
  | balanceIn s =>
    obtain ⟨hn, hroc⟩ := holdInsert_noPark hs .balance (v := .slow) Level.noConfusion
    exact ⟨hn, s.roc.limits, hroc⟩
  | balanceOut s =>
    obtain ⟨hn, hroc⟩ := holdRemove_noPark hs .balance
    exact ⟨hn, s.roc.limits, hroc⟩
  | bringHome s =>
    obtain ⟨hn, hroc⟩ := bringHomeJudge_noPark hs
    exact ⟨hn, s.roc.limits, hroc⟩
  | trans _ _ h k =>
    obtain ⟨ht, l, hroc⟩ := h hs
    obtain ⟨hu, m, hroc'⟩ := k ht
    exact ⟨hu, m, by rw [hroc', hroc]⟩

/-- Codes without an action change no entry but the balance and the bring-home one. -/
theorem Chain.hold (hC : Idle C) (h : Chain C s t) {i : HoldId} (hb : i ≠ .balance) (ho : i ≠ .boarding) :
    t.hold i = s.hold i := by
  induction h with
  | plain h =>
    obtain ⟨_, _, _, _, _, rfl⟩ := h
    rfl
  | report k s hc => exact hold_congr (report_hlu_without_action k s (hC _ hc)) i
  | balanceIn s => exact (holdInsert_content Level.noConfusion HoldId.noConfusion s).2.1 i hb ho
  | balanceOut s => exact (holdRemove_content HoldId.noConfusion s).2.1 i hb ho
  | bringHome s => exact (bringHomeJudge_own s).hold i ho
  | trans _ _ h k => exact k.trans h

/-- Reports at other banks leave a bank. -/
theorem Chain.bank {b : BankId} (hC : ∀ c, C c → c.bank ≠ b) (h : Chain C s t) : t.bank b = s.bank b := by
  induction h with
  | plain h =>
    obtain ⟨_, _, _, _, _, rfl⟩ := h
    rfl
  | @report c k s hc =>
    cases hm : (s.bank c.bank).masks c with
    | true => rw [report_masked k hm]
    | false => exact (report_content k hm).2.1 b (hC _ hc).symm
  | balanceIn s => exact bank_congr (holdInsert_changed ..).fbu b
  | balanceOut s => exact bank_congr (holdRemove_changed ..).fbu b
  | bringHome s => exact bank_congr (bringHomeJudge_changed s).fbu b
  | trans _ _ h k => exact k.trans h

/-! ### Reports of codes with an action (R163, R164) -/

variable {c : FaultCode} {a : FaultAction}

theorem report_wheel (k : Option Nat) (ha : c.action = some a) (hm : (s.bank c.bank).masks c = false) :
    ∃ v, report c k s = faultEntry c.bank (s.bank c.bank).hold
      (if (s.bank c.bank).hold.isSome then some .park else some a)
      { setBank c.bank (s.reportedBank c k) s with lkp := v } := by
  obtain ⟨v, hn⟩ := reportNoticed_eq k c s
  refine ⟨v, ?_⟩
  rw [report_unmasked k hm, reportedBank_hold, ha, faultHandOver_none k (by rw [FaultCode.scope_of_action ha]; exact FaultScope.noConfusion), hn]

theorem report_bank_hold (k : Option Nat) (ha : c.action = some a) (hm : (s.bank c.bank).masks c = false) :
    ((report c k s).bank c.bank).hold = if (s.bank c.bank).hold.isSome then some .park else some a := by
  rw [report_bank_self k hm, reportedBank_hold, ha]

/-- A bank that is pending at PARK stays there, and its entry as it is. -/
theorem report_at_park (k : Option Nat) (ha : c.action = some a) (hp : (s.bank c.bank).hold = some .park) :
    (report c k s).hlu = s.hlu ∧ (report c k s).roc = s.roc := by
  cases hm : (s.bank c.bank).masks c with
  | true => rw [report_masked k hm]; exact ⟨rfl, rfl⟩
  | false =>
    obtain ⟨v, h⟩ := report_wheel k ha hm
    rw [h, hp]
    exact ⟨rfl, rfl⟩

/-- A PARK code, or any code at a bank pending at STOP, puts the bank's entry at PARK. -/
theorem report_parks (k : Option Nat) (ha : c.action = some a) (hm : (s.bank c.bank).masks c = false)
    (hp : (s.bank c.bank).hold ≠ some .park) (hto : a = .park ∨ (s.bank c.bank).hold.isSome = true) :
    ((report c k s).hold (.fault c.bank)).map HoldEntry.level = some .park ∧ ((report c k s).bank c.bank).hold = some .park := by
  have hto : (if (s.bank c.bank).hold.isSome then some .park else some a) = some .park := by
    rcases hto with rfl | h
    · exact ite_self _
    · exact if_pos h
  obtain ⟨v, h⟩ := report_wheel k ha hm
  refine ⟨?_, (report_bank_hold k ha hm).trans hto⟩
  rw [h, hto, faultEntry_new hp]
  exact holdInsert_hold HoldId.noConfusion .park _

/-- A STOP code at a bank that is not pending brings no entry at PARK. -/
theorem report_stops (k : Option Nat) (ha : c.action = some .stop) (hm : (s.bank c.bank).masks c = false)
    (hn : (s.bank c.bank).hold = none) (hs : s.noPark) : (report c k s).noPark ∧ (report c k s).roc = s.roc := by
  obtain ⟨v, h⟩ := report_wheel k ha hm
  rw [h, hn]
  exact holdInsert_noPark (s := { setBank c.bank (s.reportedBank c k) s with lkp := v }) hs (.fault c.bank)
    (v := .stop) Level.noConfusion

end Park

end Sys2Proof.Machine

/-! Proofs: a control update may trip the wheel at PARK only, and what it leaves of the Rotation Controller's step (R25, R38,
R57, R164). -/

namespace Sys2Proof.Machine

section Close

variable {s w r t : State} {d : Int} {b : Bool}

/-! ### The Rotation Controller's step -/

/-- The block of a resting wheel with the target that it reports (R28, R36). -/
def Roc.reporting (r : Roc) (target : Nat × LimitingTerm) : Roc := { r with driveRef := 0, target := target.1, limiting := target.2 }

theorem release_waits {q : Roc} (h : q.brakeReleased = false) : release q = { q with
    rotation := .releasing, brakeConfirmed := false, releaseTimer := some 0, waitingDriveReady := false } := by
  simp only [release, h, Bool.false_eq_true, ↓reduceIte]

theorem release_present {q : Roc} (h : q.brakeReleased = true) : release q = { q with
    rotation := .running, brakeConfirmed := false, releaseTimer := none, waitingDriveReady := false, grace := some 0 } := by
  simp only [release, brakeReleasedArrives, h, ↓reduceIte, Option.isSome_some, and_self]

theorem release_rotation (q : Roc) : (release q).rotation ≠ .tripped := by
  cases h : q.brakeReleased with
  | false => rw [release_waits h]; exact Rotation.noConfusion
  | true => rw [release_present h]; exact Rotation.noConfusion

theorem brakedStep_releases (h : s.releaseWanted (s.reportedTarget 0).1 = true) (hd : s.roc.driveReady = true) :
    brakedStep s = { s with roc := release (s.roc.reporting (s.reportedTarget 0)) } :=
  (if_pos h).trans (if_pos hd)

theorem brakedStep_waits (h : s.releaseWanted (s.reportedTarget 0).1 = true) (hd : ¬s.roc.driveReady = true) :
    brakedStep s = { s with roc := { s.roc.reporting (s.reportedTarget 0) with waitingDriveReady := true } } :=
  (if_pos h).trans (if_neg hd)

theorem brakedStep_rests (h : ¬s.releaseWanted (s.reportedTarget 0).1 = true) :
    brakedStep s = { s with roc := { s.roc.reporting (s.reportedTarget 0) with waitingDriveReady := false } } := if_neg h

/-- The block of a wheel that enters STANDING (R23, R39). -/
def Roc.stands (r : Roc) : Roc := { r with rotation := .standing, standTimer := some 0, driveRef := 0, trialStep := false }

theorem enterStanding_eq (v : Nat) (s : State) :
    enterStanding v s = enterDoorHolds (s.curveLimit v) { s with roc := s.roc.stands } := rfl

theorem trialStepUpdate_moves (h : s.ptr.standstill = false) :
    trialStepUpdate s = { s with roc := s.roc.reporting (0, .held) } := if_neg fun k => Bool.noConfusion (h.symm.trans k)

theorem trialStepUpdate_stands (h : s.ptr.standstill = true) : trialStepUpdate s =
    enterDoorHolds (s.curveLimit s.roc.vCmd) { s with roc := (s.roc.reporting (0, .held)).stands } := if_pos h

/-- The block after a ramp step of a running wheel (R34, R36). -/
def State.ramped (s : State) : Roc :=
  let v := rampStep s.roc.vCmd (s.speedTarget s.roc.vCmd).1 s.cfs.speeds.aAcc s.roc.aEff
  { s.roc with
    target := (s.reportedTarget s.roc.vCmd).1, limiting := (s.reportedTarget s.roc.vCmd).2
    vCmd := v, driveRef := driveWord v }

theorem runningStep_stands (hv : s.ramped.vCmd = 0) (h : s.ptr.standstill = true) : runningStep s =
    enterDoorHolds (s.curveLimit s.roc.vCmd) { s with roc := s.ramped.stands } := if_pos ⟨hv, h⟩

theorem runningStep_runs (h : ¬(s.ramped.vCmd = 0 ∧ s.ptr.standstill = true)) : runningStep s = { s with roc := s.ramped } :=
  if_neg h

/-- The block of a standing wheel that runs again (R24). -/
def State.restarted (s : State) : Roc :=
  let v := rampStep s.roc.vCmd (s.speedTarget s.roc.vCmd).1 s.cfs.speeds.aAcc s.roc.aEff
  { s.roc with
    target := (s.reportedTarget s.roc.vCmd).1, limiting := (s.reportedTarget s.roc.vCmd).2
    rotation := .running, standTimer := none, vCmd := v, driveRef := driveWord v }

theorem standingStep_runs (h : 0 < (s.speedTarget s.roc.vCmd).1) : standingStep s = { s with roc := s.restarted } := if_pos h

theorem standingStep_stands (h : ¬0 < (s.speedTarget s.roc.vCmd).1) :
    standingStep s = { s with roc := s.roc.reporting (s.reportedTarget s.roc.vCmd) } := if_neg h

/-- The step of a wheel not TRIPPED: its own block alone, then the door holds of an entry into STANDING (R91). -/
theorem rotationStep_shape (h : s.roc.rotation ≠ .tripped) : ∃ q, q.rotation ≠ .tripped ∧
    (rotationStep s = { s with roc := q } ∨ ∃ curve, rotationStep s = enterDoorHolds curve { s with roc := q }) := by
  have hstanding : Rotation.standing ≠ .tripped := Rotation.noConfusion
  unfold rotationStep
  split
  · by_cases hw : s.releaseWanted (s.reportedTarget 0).1 = true
    · by_cases hd : s.roc.driveReady = true
      · exact ⟨_, release_rotation _, .inl (brakedStep_releases hw hd)⟩
      · refine ⟨_, ?_, .inl (brakedStep_waits hw hd)⟩
        exact h
    · refine ⟨_, ?_, .inl (brakedStep_rests hw)⟩
      exact h
  · exact ⟨s.roc.reporting (s.reportedTarget 0), h, .inl rfl⟩
  · split
    · cases hs : s.ptr.standstill with
      | true => exact ⟨_, hstanding, .inr ⟨_, trialStepUpdate_stands hs⟩⟩
      | false =>
        refine ⟨_, ?_, .inl (trialStepUpdate_moves hs)⟩
        exact h
    · by_cases hs : s.ramped.vCmd = 0 ∧ s.ptr.standstill = true
      · exact ⟨_, hstanding, .inr ⟨_, runningStep_stands hs.1 hs.2⟩⟩
      · refine ⟨_, ?_, .inl (runningStep_runs hs)⟩
        exact h
  · by_cases ht : 0 < (s.speedTarget s.roc.vCmd).1
    · exact ⟨s.restarted, Rotation.noConfusion, .inl (standingStep_runs ht)⟩
    · refine ⟨_, ?_, .inl (standingStep_stands ht)⟩
      exact h
  · next hr => exact absurd hr h

/-- DOOR_CLOSE_LATE alone, which has no action (R155). -/
theorem doorCloseLate_idle : Idle fun c => c = .doorCloseLate := by
  rintro _ rfl
  rfl

theorem enterDoorHolds_late (curve : LimitPoint → Nat) (s : State) :
    Chain (fun c => c = .doorCloseLate) s (enterDoorHolds curve s) :=
  enterDoorHolds_chain (C := fun c => c = .doorCloseLate) rfl curve s

/-- The step of a wheel not TRIPPED trips nothing where no entry is at PARK, and leaves the ROTATION bank; it begins no
trial. -/
theorem rotationStep_moving (h : s.roc.rotation ≠ .tripped) (hs : s.noPark) :
    (rotationStep s).roc.rotation ≠ .tripped ∧ (rotationStep s).noPark ∧
      (rotationStep s).bank .rotation = s.bank .rotation ∧
      ((rotationStep s).mvu.trial.status = .measuring → s.mvu.trial.status = .measuring) := by
  obtain ⟨q, hq, hr | ⟨curve, hr⟩⟩ := rotationStep_shape h
  · rw [hr]
    exact ⟨hq, hs, rfl, id⟩
  · rw [hr]
    have hchain := enterDoorHolds_late curve { s with roc := q }
    obtain ⟨hn, l, hroc⟩ := hchain.noPark doorCloseLate_idle hs
    refine ⟨by rw [hroc]; exact hq, hn, ?_, fun hm => ((enterDoorHolds_event curve _).trial hm).1⟩
    exact (Chain.bank (C := fun c => c = .doorCloseLate) (by rintro _ rfl; exact BankId.noConfusion) hchain).trans rfl

/-! ### The end of a trial (R57) -/

/-- The end of a trial: its record and a_eff, and DECEL_INSUFFICIENT where it is due. -/
theorem completeTrial_shape (s : State) : ∃ m a n, (completeTrial s = notify n { s with mvu := m, roc := { s.roc with aEff := a } }) ∨
    completeTrial s = notify n (report .decelInsufficient none { s with mvu := m, roc := { s.roc with aEff := a } }) := by
  unfold completeTrial
  dsimp only
  split
  · exact ⟨_, _, _, .inl rfl⟩
  · exact ⟨_, _, _, .inr rfl⟩

theorem trialUpdate_shape (d : Int) (s : State) : ∃ m a v,
    (trialUpdate d s = { s with mvu := m, roc := { s.roc with aEff := a }, lkp := v }) ∨
    s.mvu.trial.status = .measuring ∧ s.ptr.standstill = true ∧ ∃ n,
      trialUpdate d s = notify n (report .decelInsufficient none { s with mvu := m, roc := { s.roc with aEff := a } }) := by
  unfold trialUpdate
  dsimp only
  split
  · next hm =>
    split
    · next hs =>
      obtain ⟨m, a, n, h | h⟩ := completeTrial_shape
        { s with mvu := { s.mvu with trial := { s.mvu.trial with counts := some (s.mvu.trial.counts.getD 0 + d) } } }
      · exact ⟨m, a, _, .inl h⟩
      · exact ⟨m, a, s.lkp, .inr ⟨hm, hs, n, h⟩⟩
    · exact ⟨_, s.roc.aEff, s.lkp, .inl rfl⟩
  · exact ⟨s.mvu, s.roc.aEff, s.lkp, .inl rfl⟩

/-! ### The Rotation Controller over the rest of the update -/

theorem trackingCheck_wheeled (b : Bool) (r : State) : ∃ k, (r.trackingMade b = false → k = 0) ∧
    Wheeled { r with roc := { r.roc with tracking := k } } (trackingCheck b r) := by
  unfold trackingCheck
  dsimp only
  split
  · exact ⟨0, fun _ => rfl, report_wheeled ..⟩
  · refine ⟨_, fun hm => ?_, .of_roc rfl⟩
    rw [hm]
    rfl

theorem trialUpdate_wheeled (d : Int) (s : State) : Wheeled s (trialUpdate d s) := by
  obtain ⟨m, a, v, h | ⟨-, -, n, h⟩⟩ := trialUpdate_shape d s
  · exact ⟨s.roc.limits, a, .inl (by rw [h])⟩
  · rw [h]
    have hreport := report_wheeled .decelInsufficient none { s with mvu := m, roc := { s.roc with aEff := a } }
    exact Wheeled.trans (t := { s with mvu := m, roc := { s.roc with aEff := a } }) ⟨s.roc.limits, a, .inl rfl⟩
      (hreport.trans (.of_roc rfl))

theorem moveUpdate_wheeled (s : State) : Wheeled s (moveUpdate s) := (moveUpdate_chain (C := fun _ => False) s).wheeled

/-- What the update leaves of the Rotation Controller's step r: the tracking counter k, which is 0 without a check. -/
theorem closeUpdate_wheeled (d : Int) (b : Bool) (r : State) : ∃ k m, (r.trackingMade b = false → k = 0) ∧
    Wheeled { r with roc := { r.roc with tracking := k } } m ∧ closeUpdate d b r = keepWord m := by
  obtain ⟨k, hk, h⟩ := trackingCheck_wheeled b r
  exact ⟨k, _, hk, h.trans ((trialUpdate_wheeled d _).trans (moveUpdate_wheeled _)), rfl⟩

/-! ### The trip (R25) -/

/-- The ROTATION bank and its entry are at PARK. -/
def State.rotationParks (s : State) : Prop :=
  (s.hold (.fault .rotation)).map HoldEntry.level = some .park ∧ (s.bank .rotation).hold = some .park

theorem park_of_rotationParks (h : Inner s) (hp : s.rotationParks) : s.hlu.effective = .park := by
  obtain ⟨e, he, hpark⟩ := Option.map_eq_some_iff.mp hp.1
  exact h.holds.effective.trans (highestLevel_park.mpr ⟨e, List.mem_of_find?_eq_some he, hpark⟩)

theorem tripped_of_rotationParks (h : Inner s) (hp : s.rotationParks) : s.roc.rotation = .tripped :=
  h.wheel.park (park_of_rotationParks h hp)

theorem not_park_of_noPark (h : Inner s) (hs : s.noPark) : s.hlu.effective ≠ .park := fun hp => by
  obtain ⟨e, he, hpark⟩ := highestLevel_park.mp (h.holds.effective.symm.trans hp)
  exact hs e he hpark

/-- A report of TRACKING_ERROR. -/
theorem trackingError_parks (hm : (s.bank .rotation).mask.getLsbD 2 = false) (hp : (s.bank .rotation).hold ≠ some .park)
    (k : Option Nat) : (report .trackingError k s).rotationParks :=
  report_parks (c := .trackingError) k rfl hm hp (.inl rfl)

/-- A report of TRACKING_ERROR parks the bank, or leaves the set and the wheel. -/
theorem trackingError_cases (k : Option Nat) (s : State) : (report .trackingError k s).rotationParks ∨
    (report .trackingError k s).hlu = s.hlu ∧ (report .trackingError k s).roc = s.roc ∧
      ((report .trackingError k s).bank .rotation).hold = (s.bank .rotation).hold := by
  cases hm : (s.bank .rotation).masks .trackingError with
  | true =>
    rw [report_masked (code := .trackingError) k hm]
    exact .inr ⟨rfl, rfl, rfl⟩
  | false =>
    by_cases hp : (s.bank .rotation).hold = some .park
    · obtain ⟨hhlu, hroc⟩ := report_at_park (c := .trackingError) k rfl hp
      have hhold := report_bank_hold (c := .trackingError) k rfl hm
      refine .inr ⟨hhlu, hroc, hhold.trans ?_⟩
      rw [show (s.bank (FaultCode.bank .trackingError)).hold = some .park from hp, hp]
      rfl
    · exact .inl (trackingError_parks hm hp k)

/-- The tracking check parks the bank by its report alone (R38). -/
theorem trackingCheck_side (hn : r.roc.rotation ≠ .tripped) (hs : r.noPark) (w : State) :
    (tracksOff w r ∧ 19 ≤ r.roc.tracking ∧ (trackingCheck w.roc.trialStep r).rotationParks) ∨
    ((trackingCheck w.roc.trialStep r).roc.rotation ≠ .tripped ∧ (trackingCheck w.roc.trialStep r).noPark ∧
      ((trackingCheck w.roc.trialStep r).bank .rotation).hold = (r.bank .rotation).hold) := by
  by_cases hd : r.trackingDue w.roc.trialStep = true
  · rw [trackingCheck_due hd]
    obtain ⟨hoff, h19⟩ := trackingDue_iff.mp hd
    rcases trackingError_cases none { r with roc := { r.roc with tracking := 0 } } with h | ⟨hhlu, hroc, hhold⟩
    · exact .inl ⟨hoff, h19, h⟩
    · refine .inr ⟨by rw [hroc]; exact hn, ?_, hhold⟩
      rw [State.noPark, hhlu]
      exact hs
  · rw [trackingCheck, if_neg hd]
    exact .inr ⟨hn, hs, rfl⟩

/-- DECEL_INSUFFICIENT parks a bank that is pending at STOP alone (R163, R164). -/
theorem decelInsufficient_cases (k : Option Nat) (s : State) (hs : s.noPark) :
    ((s.bank .rotation).hold = some .stop ∧ (report .decelInsufficient k s).rotationParks) ∨
    (report .decelInsufficient k s).noPark ∧ (report .decelInsufficient k s).roc = s.roc := by
  cases hm : (s.bank .rotation).masks .decelInsufficient with
  | true =>
    rw [report_masked (code := .decelInsufficient) k hm]
    exact .inr ⟨hs, rfl⟩
  | false =>
    cases hp : (s.bank .rotation).hold with
    | none => exact .inr (report_stops (c := .decelInsufficient) k rfl hm hp hs)
    | some a =>
      cases a with
      | stop =>
        have hne : (s.bank .rotation).hold ≠ some .park := by rw [hp]; nofun
        exact .inl ⟨rfl, report_parks (c := .decelInsufficient) k rfl hm hne (.inr (congrArg Option.isSome hp))⟩
      | park =>
        obtain ⟨hhlu, hroc⟩ := report_at_park (c := .decelInsufficient) k rfl hp
        refine .inr ⟨?_, hroc⟩
        rw [State.noPark, hhlu]
        exact hs

theorem trialUpdate_side (d : Int) (hn : s.roc.rotation ≠ .tripped) (hs : s.noPark) :
    ((s.mvu.trial.status = .measuring ∧ s.ptr.standstill = true ∧ (s.bank .rotation).hold = some .stop) ∧
      (trialUpdate d s).rotationParks) ∨
    ((trialUpdate d s).roc.rotation ≠ .tripped ∧ (trialUpdate d s).noPark) := by
  obtain ⟨m, a, v, h | ⟨hm, hstill, n, h⟩⟩ := trialUpdate_shape d s
  · rw [h]
    exact .inr ⟨hn, hs⟩
  · rw [h]
    rcases decelInsufficient_cases none { s with mvu := m, roc := { s.roc with aEff := a } } hs with ⟨hhold, hp⟩ | ⟨hno, hroc⟩
    · exact .inl ⟨⟨hm, hstill, hhold⟩, hp⟩
    · exact .inr ⟨by show (report _ _ _).roc.rotation ≠ _; rw [hroc]; exact hn, hno⟩

/-- A bank that is at PARK stays there, with its entry, over the trial's part. -/
theorem trialUpdate_parks (d : Int) (h : s.rotationParks) :
    ((trialUpdate d s).hold (.fault .rotation)).map HoldEntry.level = some .park := by
  obtain ⟨m, a, v, he | ⟨-, -, n, he⟩⟩ := trialUpdate_shape d s
  · rw [he]
    exact h.1
  · rw [he]
    have hhlu := (report_at_park (c := .decelInsufficient) (s := { s with mvu := m, roc := { s.roc with aEff := a } }) none rfl h.2).1
    exact (congrArg (Option.map HoldEntry.level) (hold_congr hhlu _)).trans h.1

/-- The block after a trip (R25). -/
theorem tripRoc_rest (q : Roc) : (tripRoc q).vCmd = 0 ∧ (tripRoc q).driveRef = 0 ∧ (tripRoc q).tracking = 0 ∧
    (tripRoc q).releaseTimer = none ∧ (tripRoc q).standTimer = none ∧ (tripRoc q).grace = none ∧ (tripRoc q).trialStep = false := by
  cases h : brakeEnergised q.rotation with
  | true => rw [tripRoc_lifted h]; exact ⟨rfl, rfl, rfl, rfl, rfl, rfl, rfl⟩
  | false => rw [tripRoc_set h]; exact ⟨rfl, rfl, rfl, rfl, rfl, rfl, rfl⟩

/-- After the step of a wheel not TRIPPED, with no entry at PARK: the update ends TRIPPED with the ROTATION bank's entry at
PARK, by one of two reports, or as it was with no entry at PARK. -/
theorem closeUpdate_side (hn : r.roc.rotation ≠ .tripped) (hs : r.noPark) (w : State) (d : Int) :
    ((tracksOff w r ∧ 19 ≤ r.roc.tracking ∨
      r.mvu.trial.status = .measuring ∧ r.ptr.standstill = true ∧ (r.bank .rotation).hold = some .stop) ∧
      ((closeUpdate d w.roc.trialStep r).hold (.fault .rotation)).map HoldEntry.level = some .park) ∨
    (closeUpdate d w.roc.trialStep r).roc.rotation ≠ .tripped ∧ (closeUpdate d w.roc.trialStep r).noPark := by
  have hidle : Idle fun _ => False := fun _ hf => hf.elim
  have hmove (x : State) := moveUpdate_chain (C := fun _ => False) x
  have hheld (x : State) : (closeUpdate d w.roc.trialStep r).hold (.fault .rotation) =
      (trialUpdate d (trackingCheck w.roc.trialStep r)).hold (.fault .rotation) :=
    (hmove _).hold hidle HoldId.noConfusion HoldId.noConfusion
  rcases trackingCheck_side hn hs w with ⟨hoff, h19, hp⟩ | ⟨hcn, hcs, hhold⟩
  · refine .inl ⟨.inl ⟨hoff, h19⟩, ?_⟩
    rw [hheld r]
    exact trialUpdate_parks d hp
  · obtain ⟨hptr, hmeasuring⟩ := trackingCheck_trial (b := w.roc.trialStep) (s := r)
    rcases trialUpdate_side d hcn hcs with ⟨⟨hm, hstill, hstop⟩, hp⟩ | ⟨hxn, hxs⟩
    · refine .inl ⟨.inr ⟨(hmeasuring hm).1, by rw [← hptr]; exact hstill, by rw [← hhold]; exact hstop⟩, ?_⟩
      rw [hheld r]
      exact hp.1
    · obtain ⟨hno, l, hroc⟩ := (hmove (trialUpdate d (trackingCheck w.roc.trialStep r))).noPark hidle hxs
      refine .inr ⟨?_, hno⟩
      show (moveUpdate _).roc.rotation ≠ _
      rw [hroc]
      exact hxn

/-- The block of a wheel that the rest of an update has tripped (R25). -/
theorem closeUpdate_tripped (hn : r.roc.rotation ≠ .tripped) (ht : (closeUpdate d b r).roc.rotation = .tripped) :
    ∃ k l a, (closeUpdate d b r).roc =
      { tripRoc { r.roc with tracking := k } with limits := l, aEff := a, updateRef := 0 } := by
  obtain ⟨k, m, -, ⟨l, a, h | ⟨-, h⟩⟩, hclose⟩ := closeUpdate_wheeled d b r
  · rw [hclose, keepWord, h] at ht
    exact absurd ht hn
  · refine ⟨k, l, a, ?_⟩
    rw [hclose, keepWord, h, (tripRoc_rest _).2.1]

/-- The report of TRACKING_ERROR trips the wheel (R25, R38). -/
theorem closeUpdate_trips (hi : Inner r) (hoff : tracksOff w r) (h19 : 19 ≤ r.roc.tracking)
    (hm : (r.bank .rotation).mask.getLsbD 2 = false) (hp : (r.bank .rotation).hold ≠ some .park) (d : Int) :
    (closeUpdate d w.roc.trialStep r).roc.rotation = .tripped := by
  have hcheck := trackingCheck_due (trackingDue_iff.mpr ⟨hoff, h19⟩)
  have hpark := trackingError_parks (s := { r with roc := { r.roc with tracking := 0 } }) hm hp none
  rw [← hcheck] at hpark
  have htripped := tripped_of_rotationParks ((trackingCheck_effect _ _).inner hi) hpark
  have hlater := (trialUpdate_wheeled d (trackingCheck w.roc.trialStep r)).trans (moveUpdate_wheeled _)
  exact hlater.stays_tripped htripped

end Close

/-- In a sound state an update of a wheel not TRIPPED trips it at PARK alone (R25). -/
theorem controlUpdate_tripsAtPark {s : State} (hs : BlocksSound s) (hn : (updateWheel s).roc.rotation ≠ .tripped) :
    TripsAtPark (updateWheel s) (controlUpdate s) := by
  have hinner := ((blocksSound_iff s).mp hs).1
  have hw : Inner (updateWheel s) := (updateWheel_effect s).inner hinner
  have hr : Inner (rotationStep (updateWheel s)) := (rotationStep_calm _).inner hw
  have ht : Inner (controlUpdate s) := (controlUpdate_effect s).inner hinner
  obtain ⟨hrn, hrs, hbank, htrial⟩ := rotationStep_moving hn (noPark_of_moving hw hn)
  have hptr : (rotationStep (updateWheel s)).ptr = (updateWheel s).ptr := congrArg Prod.fst (rotationStep_sensed _)
  have hside := closeUpdate_side hrn hrs (updateWheel s) s.ptr.delta
  rw [← controlUpdate_eq, hbank, hptr] at hside
  have hparks (h : ((controlUpdate s).hold (.fault .rotation)).map HoldEntry.level = some .park) :
      (controlUpdate s).hlu.effective = .park := by
    obtain ⟨e, he, hpark⟩ := Option.map_eq_some_iff.mp h
    exact ht.holds.effective.trans (highestLevel_park.mpr ⟨e, List.mem_of_find?_eq_some he, hpark⟩)
  refine ⟨⟨fun htr => ?_, ht.wheel.park⟩, fun htr => ?_, fun htr => ?_, fun hoff h19 hm hp => ?_⟩
  · rcases hside with ⟨-, hentry⟩ | ⟨hnt, -⟩
    · exact hparks hentry
    · exact absurd htr hnt
  · obtain ⟨k, l, a, h⟩ := closeUpdate_tripped hrn htr
    obtain ⟨hv, hd, hk, hrel, hst, hg, hts⟩ := tripRoc_rest { (rotationStep (updateWheel s)).roc with tracking := k }
    rw [controlUpdate_eq, h]
    exact ⟨hv, hd, hk, hrel, hst, hg, hts⟩
  · rcases hside with ⟨hcause | hcause, -⟩ | ⟨hnt, -⟩
    · exact .inl hcause
    · obtain ⟨hm, hstill, hstop⟩ := hcause
      exact .inr ⟨htrial hm, hstill, hstop⟩
    · exact absurd htr hnt
  · rw [← hbank] at hm hp
    rw [controlUpdate_eq]
    exact closeUpdate_trips hr hoff h19 hm hp _

end Sys2Proof.Machine

/-! Proofs: the update of a resting wheel (R20, R22, R24, R25, R28). -/

namespace Sys2Proof.Machine

section Resting

variable {s r w : State} {d : Int} {b : Bool}

/-! ### What the rest of the update leaves of the step -/

theorem tripRoc_shown (q : Roc) : (tripRoc q).target = q.target ∧ (tripRoc q).limiting = q.limiting := by
  cases h : brakeEnergised q.rotation with
  | true => rw [tripRoc_lifted h]; exact ⟨rfl, rfl⟩
  | false => rw [tripRoc_set h]; exact ⟨rfl, rfl⟩

/-- The reported target is the step's, tripped or not (R28). -/
theorem closeUpdate_shown (d : Int) (b : Bool) (r : State) :
    (closeUpdate d b r).roc.target = r.roc.target ∧ (closeUpdate d b r).roc.limiting = r.roc.limiting := by
  obtain ⟨k, m, -, ⟨l, a, h | ⟨-, h⟩⟩, hclose⟩ := closeUpdate_wheeled d b r
  · rw [hclose, keepWord, h]
    exact ⟨rfl, rfl⟩
  · rw [hclose, keepWord, h]
    exact tripRoc_shown { r.roc with tracking := k }

theorem closeUpdate_moving (h : (closeUpdate d b r).roc.rotation ≠ .tripped) : ∃ k l a,
    (closeUpdate d b r).roc = { r.roc with tracking := k, limits := l, aEff := a, updateRef := r.roc.driveRef } := by
  obtain ⟨k, m, -, hwheel, hclose⟩ := closeUpdate_wheeled d b r
  rw [hclose] at h ⊢
  obtain ⟨l, a, hm⟩ := hwheel.moving h
  exact ⟨k, l, a, by rw [keepWord, hm]⟩

theorem closeUpdate_stays_tripped (h : r.roc.rotation = .tripped) : ∃ l a, (closeUpdate d b r).roc =
    { r.roc with tracking := 0, limits := l, aEff := a, updateRef := r.roc.driveRef } := by
  obtain ⟨k, m, hk, hwheel, hclose⟩ := closeUpdate_wheeled d b r
  have hmade : r.trackingMade b = false := by simp [State.trackingMade, h]
  rw [hk hmade] at hwheel
  obtain ⟨l, a, hm⟩ := hwheel.tripped h
  exact ⟨l, a, by rw [hclose, keepWord, hm]⟩

/-! ### The step by the state of the wheel -/

theorem rotationStep_braked (h : s.roc.rotation = .braked) : rotationStep s = brakedStep s := by simp only [rotationStep, h]

theorem rotationStep_releasing (h : s.roc.rotation = .releasing) :
    rotationStep s = { s with roc := s.roc.reporting (s.reportedTarget 0) } := by
  simp only [rotationStep, h]
  rfl

theorem rotationStep_standing (h : s.roc.rotation = .standing) : rotationStep s = standingStep s := by simp only [rotationStep, h]

theorem rotationStep_tripped (h : s.roc.rotation = .tripped) : rotationStep s = { s with roc := s.roc.reporting (0, .held) } := by
  simp only [rotationStep, h]
  rfl

theorem releaseWanted_iff {v : Nat} : s.releaseWanted v = true ↔
    s.roc.runEnable = true ∧ s.cfs.device = .service ∧ 0 < v ∧ s.roc.brakeConfirmed = true := by
  simp only [State.releaseWanted, Bool.and_eq_true, beq_iff_eq, decide_eq_true_eq, and_assoc]

theorem targetHeld_iff : s.targetHeld = true ↔ s.cfs.device = .config ∨ s.roc.rotation = .tripped ∨ s.roc.trialStep = true ∨
    (s.roc.rotation = .braked ∧ s.roc.brakeConfirmed = false) := by
  simp only [State.targetHeld, Bool.or_eq_true, Bool.and_eq_true, beq_iff_eq, Bool.not_eq_true', or_assoc]

theorem release_shown (q : Roc) : (release q).target = q.target ∧ (release q).limiting = q.limiting := by
  cases h : q.brakeReleased with
  | false => rw [release_waits h]; exact ⟨rfl, rfl⟩
  | true => rw [release_present h]; exact ⟨rfl, rfl⟩

theorem brakedStep_shown (s : State) :
    (brakedStep s).roc.target = (s.reportedTarget 0).1 ∧ (brakedStep s).roc.limiting = (s.reportedTarget 0).2 := by
  by_cases hw : s.releaseWanted (s.reportedTarget 0).1 = true
  · by_cases hd : s.roc.driveReady = true
    · rw [brakedStep_releases hw hd]
      exact release_shown _
    · rw [brakedStep_waits hw hd]
      exact ⟨rfl, rfl⟩
  · rw [brakedStep_rests hw]
    exact ⟨rfl, rfl⟩

theorem standingStep_shown (s : State) : (standingStep s).roc.target = (s.reportedTarget s.roc.vCmd).1 ∧
    (standingStep s).roc.limiting = (s.reportedTarget s.roc.vCmd).2 := by
  by_cases ht : 0 < (s.speedTarget s.roc.vCmd).1
  · rw [standingStep_runs ht]
    exact ⟨rfl, rfl⟩
  · rw [standingStep_stands ht]
    exact ⟨rfl, rfl⟩

end Resting

/-- Settles O14, by the Rotation Controller's step in each resting state and what the rest of the update leaves of it. -/
theorem restingUpdateReleasesOrStays : Obligations.RestingUpdateReleasesOrStays := by
  unfold Obligations.RestingUpdateReleasesOrStays
  refine ⟨fun s v => ⟨fun hheld => if_pos (targetHeld_iff.mpr hheld), fun hheld => if_neg fun h => hheld (targetHeld_iff.mp h)⟩, ?_⟩
  intro s hrun w goal wanted
  obtain ⟨htarget, hlimiting⟩ := closeUpdate_shown s.ptr.delta (updateWheel s).roc.trialStep (rotationStep (updateWheel s))
  refine ⟨_, exec_controlUpdate hrun, fun hs hn => controlUpdate_tripsAtPark hs hn, rfl, fun hw => ?rests, fun hw => ?stands,
    fun hw => ?tripped, ?moves⟩
  all_goals rw [controlUpdate_eq]
  case rests =>
    rw [htarget, hlimiting]
    rcases hw with hw | hw
    · rw [rotationStep_braked hw]
      exact brakedStep_shown w
    · rw [rotationStep_releasing hw]
      exact ⟨rfl, rfl⟩
  case stands =>
    rw [htarget, hlimiting, rotationStep_standing hw]
    exact standingStep_shown w
  case tripped =>
    rw [rotationStep_tripped hw]
    obtain ⟨l, a, h⟩ := closeUpdate_stays_tripped (d := s.ptr.delta) (b := (updateWheel s).roc.trialStep)
      (r := { w with roc := w.roc.reporting (0, .held) }) hw
    rw [h]
    rfl
  case moves =>
    by_cases ht : (closeUpdate s.ptr.delta w.roc.trialStep (rotationStep w)).roc.rotation = .tripped
    · exact .inl ht
    obtain ⟨k, l, a, hroc⟩ := closeUpdate_moving ht
    have hwanted : w.releaseWanted (w.reportedTarget 0).1 = true ↔ wanted := releaseWanted_iff
    rw [hroc]
    refine .inr ⟨fun hw => ?_, fun hw hd hr hb => ?_, fun hw hd hr hb => ?_, fun hw hd hr => ?_, fun hw hd => ?_, fun hw hg => ?_,
      fun hw hg => ?_⟩
    · rw [rotationStep_releasing hw]
      exact ⟨hw, rfl, rfl, rfl⟩
    · rw [rotationStep_braked hw, brakedStep_releases (hwanted.mpr hd) hr, release_waits (q := w.roc.reporting _) hb]
      exact ⟨rfl, rfl, rfl, rfl⟩
    · rw [rotationStep_braked hw, brakedStep_releases (hwanted.mpr hd) hr, release_present (q := w.roc.reporting _) hb]
      exact ⟨rfl, rfl, rfl, rfl⟩
    · rw [rotationStep_braked hw, brakedStep_waits (hwanted.mpr hd) (by rw [hr]; exact Bool.false_ne_true)]
      exact ⟨hw, rfl, rfl⟩
    · rw [rotationStep_braked hw, brakedStep_rests fun h => hd (hwanted.mp h)]
      exact ⟨hw, rfl, rfl⟩
    · rw [rotationStep_standing hw, standingStep_runs hg]
      exact ⟨rfl, rfl, rfl⟩
    · rw [rotationStep_standing hw, standingStep_stands (Nat.not_lt.mpr (Nat.le_of_eq hg))]
      exact ⟨hw, rfl, rfl⟩

end Sys2Proof.Machine

/-! Proofs: the speed target term by term (R28 to R30, R33), and the overrun check (R37). -/

namespace Sys2Proof.Machine

/-! ### The integer square root -/

theorem isqrtFrom_spec {n : Nat} (k r : Nat) (h : r * r ≤ n) (hn : n < (r + 2 ^ k) * (r + 2 ^ k)) :
    isqrtFrom n k r * isqrtFrom n k r ≤ n ∧ n < (isqrtFrom n k r + 1) * (isqrtFrom n k r + 1) := by
  induction k generalizing r with
  | zero => exact ⟨h, hn⟩
  | succ k ih =>
    rw [isqrtFrom]
    split
    · next hle => exact ih _ hle (by rw [Nat.add_assoc, ← Nat.two_mul, ← Nat.pow_succ']; exact hn)
    · next hlt => exact ih _ h (Nat.not_le.mp hlt)

theorem isqrt_spec (n : Nat) : isqrt n * isqrt n ≤ n ∧ n < (isqrt n + 1) * (isqrt n + 1) := by
  refine isqrtFrom_spec _ 0 (Nat.zero_le n) ?_
  rw [Nat.zero_add, ← Nat.pow_add]
  exact Nat.lt_of_lt_of_le Nat.lt_log2_self (Nat.pow_le_pow_right (by decide) (by omega))

/-! ### The least of a list of terms (R28) -/

section Least

variable {a : Nat × LimitingTerm} {l : List (Nat × LimitingTerm)}

/-- The first term is the least one, or the rest's least one lies below it. -/
theorem leastTerm_cons (a : Nat × LimitingTerm) (l : List (Nat × LimitingTerm)) :
    leastTerm (a :: l) = a ∨ l ≠ [] ∧ leastTerm (a :: l) = leastTerm l ∧ (leastTerm l).1 < a.1 := by
  cases l with
  | nil => exact .inl rfl
  | cons b l =>
    by_cases h : a.1 ≤ (leastTerm (b :: l)).1
    · exact .inl (if_pos h)
    · exact .inr ⟨List.cons_ne_nil _ _, if_neg h, Nat.not_le.mp h⟩

theorem leastTerm_head (h : (leastTerm (a :: l)).1 = a.1) : leastTerm (a :: l) = a := by
  rcases leastTerm_cons a l with ha | ⟨-, hl, hlt⟩
  · exact ha
  · rw [hl] at h
    exact absurd h (Nat.ne_of_lt hlt)

theorem leastTerm_tail (h : (leastTerm (a :: l)).1 ≠ a.1) : l ≠ [] ∧ leastTerm (a :: l) = leastTerm l := by
  rcases leastTerm_cons a l with ha | ⟨hne, hl, -⟩
  · exact absurd (congrArg Prod.fst ha) h
  · exact ⟨hne, hl⟩

theorem leastTerm_mem (h : l ≠ []) : leastTerm l ∈ l := by
  induction l with
  | nil => exact absurd rfl h
  | cons a l ih =>
    rcases leastTerm_cons a l with ha | ⟨hne, hl, -⟩
    · rw [ha]
      exact List.mem_cons_self
    · rw [hl]
      exact List.mem_cons_of_mem _ (ih hne)

/-- The least term of a list's images is that of the first entry with its value. -/
theorem leastTerm_map {α : Type} (f : α → Nat × LimitingTerm) {m : List α} (h : m ≠ []) : ∃ before e after,
    m = before ++ e :: after ∧ leastTerm (m.map f) = f e ∧ ∀ x ∈ before, (f x).1 ≠ (f e).1 := by
  induction m with
  | nil => exact absurd rfl h
  | cons x m ih =>
    rcases leastTerm_cons (f x) (m.map f) with hx | ⟨hne, hl, hlt⟩
    · exact ⟨[], x, m, rfl, hx, nofun⟩
    · obtain ⟨before, e, after, hm, he, hbefore⟩ := ih fun hm => hne (by rw [hm]; rfl)
      refine ⟨x :: before, e, after, by rw [hm]; rfl, hl.trans he, fun y hy => ?_⟩
      rcases List.mem_cons.mp hy with rfl | hy
      · rw [← he]
        exact Nat.ne_of_gt hlt
      · exact hbefore y hy

end Least

/-! ### The terms of the speed target (R28 to R30) -/

section Target

variable {s : State} {v : Nat}

theorem any_isDoor_iff {l : List LimitPoint} : l.any LimitPoint.isDoor = true ↔ ∃ e ∈ l, ∃ k, e.origin = .door k := by
  rw [List.any_eq_true]
  refine exists_congr fun e => and_congr_right fun _ => ?_
  cases ho : e.origin <;> simp [LimitPoint.isDoor, ho]

theorem arrivedStop_iff : s.arrivedStop = true ↔ ∃ m k, s.mvu.slotA = some m ∧ m.kind = .stopCabin k ∧ m.status = .arrived := by
  unfold State.arrivedStop
  cases ha : s.mvu.slotA with
  | none => simp
  | some m => cases hk : m.kind <;> simp [hk]

/-- The term of the run-enable flag. -/
def State.runTerm (s : State) : Nat × LimitingTerm := (if s.roc.runEnable then s.cfs.speeds.cruise else 0, .runOff)

/-- The term of the hold level. -/
def State.levelTerm (s : State) : Nat × LimitingTerm := (s.cfs.speeds.levelCap s.hlu.effective, .level)

/-- The terms of the entries' curves. -/
def State.curveTerms (s : State) (v : Nat) : List (Nat × LimitingTerm) :=
  s.roc.limits.map fun e => (s.curveLimit v e, .curve e.origin)

/-- The term of the DOOR entries, and those of the curves. -/
def State.doorTerms (s : State) (v : Nat) : List (Nat × LimitingTerm) :=
  (if s.roc.limits.any LimitPoint.isDoor then [(s.cfs.speeds.board, .platform)] else []) ++ s.curveTerms v

/-- The terms after the first two. -/
def State.wheelTerms (s : State) (v : Nat) : List (Nat × LimitingTerm) :=
  (if s.ptr.referenced then [] else [(s.cfs.speeds.board, .unreferenced)]) ++ s.doorTerms v

theorem speedTarget_eq (s : State) (v : Nat) : s.speedTarget v = leastTerm (s.runTerm :: s.levelTerm :: s.wheelTerms v) := by
  simp only [State.speedTarget, State.targetTerms, State.runTerm, State.levelTerm, State.wheelTerms, State.doorTerms,
    State.curveTerms, List.append_assoc, List.cons_append, List.nil_append]

theorem mem_wheelTerms {x : Nat × LimitingTerm} : x ∈ s.wheelTerms v ↔
    s.ptr.referenced = false ∧ x = (s.cfs.speeds.board, .unreferenced) ∨
    (∃ e ∈ s.roc.limits, ∃ k, e.origin = .door k) ∧ x = (s.cfs.speeds.board, .platform) ∨
    ∃ e ∈ s.roc.limits, x = (s.curveLimit v e, .curve e.origin) := by
  rw [← any_isDoor_iff, State.wheelTerms, State.doorTerms, State.curveTerms, List.mem_append, List.mem_append, List.mem_map]
  refine or_congr ?_ (or_congr ?_ (exists_congr fun e => and_congr_right fun _ => eq_comm))
  · cases s.ptr.referenced <;> simp
  · cases s.roc.limits.any LimitPoint.isDoor <;> simp

/-- x is the term of the first entry whose curve has its value. -/
def State.firstCurve (s : State) (v : Nat) (x : Nat × LimitingTerm) : Prop :=
  ∃ before e after, s.roc.limits = before ++ e :: after ∧
    x.1 = s.curveLimit v e ∧ (∀ y ∈ before, s.curveLimit v y ≠ x.1) ∧ x.2 = .curve e.origin

theorem curveTerms_least (h : s.curveTerms v ≠ []) : s.firstCurve v (leastTerm (s.curveTerms v)) := by
  obtain ⟨before, e, after, hl, he, hbefore⟩ := leastTerm_map (fun e => (s.curveLimit v e, LimitingTerm.curve e.origin))
    (m := s.roc.limits) fun hl => h (by rw [State.curveTerms, hl, List.map_nil])
  refine ⟨before, e, after, hl, ?_⟩
  rw [State.curveTerms, he]
  exact ⟨rfl, hbefore, rfl⟩

theorem doorTerms_least {x : Nat × LimitingTerm} (hx : x = leastTerm (s.doorTerms v)) (h : s.doorTerms v ≠ []) :
    let out := ∃ e ∈ s.roc.limits, ∃ k, e.origin = .door k
    (out → x.1 = s.cfs.speeds.board → x.2 = .platform) ∧ (¬(out ∧ x.1 = s.cfs.speeds.board) → s.firstCurve v x) := by
  intro out
  by_cases ho : s.roc.limits.any LimitPoint.isDoor = true
  · have hlist : s.doorTerms v = (s.cfs.speeds.board, .platform) :: s.curveTerms v := by
      simp only [State.doorTerms, ho, ↓reduceIte, List.cons_append, List.nil_append]
    rw [hlist] at hx
    refine ⟨fun _ hb => by rw [hx, leastTerm_head (hx ▸ hb)], fun hn => ?_⟩
    have hne : x.1 ≠ s.cfs.speeds.board := fun hb => hn ⟨any_isDoor_iff.mp ho, hb⟩
    obtain ⟨hc, htail⟩ := leastTerm_tail (hx ▸ hne)
    rw [hx, htail]
    exact curveTerms_least hc
  · have hlist : s.doorTerms v = s.curveTerms v := by
      simp only [State.doorTerms, ho, Bool.false_eq_true, ↓reduceIte, List.nil_append]
    rw [hlist] at hx h
    rw [hx]
    exact ⟨fun hout => absurd (any_isDoor_iff.mpr hout) ho, fun _ => curveTerms_least h⟩

/-- The least of the terms after the first two. -/
theorem wheelTerms_least {x : Nat × LimitingTerm} (hx : x = leastTerm (s.wheelTerms v)) (h : s.wheelTerms v ≠ []) :
    let lost := s.ptr.referenced = false
    let out := ∃ e ∈ s.roc.limits, ∃ k, e.origin = .door k
    (lost → x.1 = s.cfs.speeds.board → x.2 = .unreferenced) ∧
    (¬lost → out → x.1 = s.cfs.speeds.board → x.2 = .platform) ∧
    (¬(lost ∧ x.1 = s.cfs.speeds.board) → ¬(out ∧ x.1 = s.cfs.speeds.board) → s.firstCurve v x) := by
  intro lost out
  cases href : s.ptr.referenced with
  | true =>
    have hlost : ¬lost := fun hl => Bool.noConfusion (href.symm.trans hl)
    have hlist : s.wheelTerms v = s.doorTerms v := by
      simp only [State.wheelTerms, href, ↓reduceIte, List.nil_append]
    rw [hlist] at hx h
    obtain ⟨hplatform, hcurve⟩ := doorTerms_least hx h
    exact ⟨fun hl => absurd hl hlost, fun _ => hplatform, fun _ => hcurve⟩
  | false =>
    have hlist : s.wheelTerms v = (s.cfs.speeds.board, .unreferenced) :: s.doorTerms v := by
      simp only [State.wheelTerms, href, Bool.false_eq_true, ↓reduceIte, List.cons_append, List.nil_append]
    rw [hlist] at hx
    refine ⟨fun _ hb => by rw [hx, leastTerm_head (hx ▸ hb)], fun hn => absurd href hn, fun hn => ?_⟩
    have hb : x.1 ≠ s.cfs.speeds.board := fun hb => hn ⟨href, hb⟩
    obtain ⟨hd, htail⟩ := leastTerm_tail (hx ▸ hb)
    exact (doorTerms_least (hx.trans htail) hd).2

/-- The speed target term by term (R28). -/
theorem speedTarget_least (s : State) (v : Nat) :
    let x := s.speedTarget v
    let board := s.cfs.speeds.board
    let lost := s.ptr.referenced = false
    let out := ∃ e ∈ s.roc.limits, ∃ k, e.origin = .door k
    x.1 ≤ s.runTerm.1 ∧ x.1 ≤ s.levelTerm.1 ∧ (lost → x.1 ≤ board) ∧ (out → x.1 ≤ board) ∧
    (∀ e ∈ s.roc.limits, x.1 ≤ s.curveLimit v e) ∧
    (x.1 = s.runTerm.1 ∨ x.1 = s.levelTerm.1 ∨ (lost ∧ x.1 = board) ∨ (out ∧ x.1 = board) ∨
      ∃ e ∈ s.roc.limits, x.1 = s.curveLimit v e) ∧
    (x.1 = s.runTerm.1 → x.2 = .runOff) ∧ (x.1 ≠ s.runTerm.1 → x.1 = s.levelTerm.1 → x.2 = .level) ∧
    (x.1 ≠ s.runTerm.1 → x.1 ≠ s.levelTerm.1 → (lost → x.1 = board → x.2 = .unreferenced) ∧
      (¬lost → out → x.1 = board → x.2 = .platform) ∧
      (¬(lost ∧ x.1 = board) → ¬(out ∧ x.1 = board) → s.firstCurve v x)) := by
  intro x board lost out
  have hx : x = leastTerm (s.runTerm :: s.levelTerm :: s.wheelTerms v) := speedTarget_eq s v
  have below {t : Nat × LimitingTerm} (ht : t ∈ s.runTerm :: s.levelTerm :: s.wheelTerms v) : x.1 ≤ t.1 := by
    rw [hx]
    exact leastTerm_le ht
  have late {t : Nat × LimitingTerm} (ht : t ∈ s.wheelTerms v) : x.1 ≤ t.1 :=
    below (List.mem_cons_of_mem _ (List.mem_cons_of_mem _ ht))
  have htail (hr : x.1 ≠ s.runTerm.1) : x = leastTerm (s.levelTerm :: s.wheelTerms v) :=
    hx.trans (leastTerm_tail (hx ▸ hr)).2
  refine ⟨below List.mem_cons_self, below (List.mem_cons_of_mem _ List.mem_cons_self),
    fun h => late (mem_wheelTerms.mpr (.inl ⟨h, rfl⟩)), fun h => late (mem_wheelTerms.mpr (.inr (.inl ⟨h, rfl⟩))),
    fun e he => late (mem_wheelTerms.mpr (.inr (.inr ⟨e, he, rfl⟩))), ?_, fun h => ?_, fun hr hl => ?_, fun hr hl => ?_⟩
  · have hmem := leastTerm_mem (l := s.runTerm :: s.levelTerm :: s.wheelTerms v) (List.cons_ne_nil _ _)
    rw [← hx] at hmem
    rcases List.mem_cons.mp hmem with h | hmem
    · exact .inl (congrArg Prod.fst h)
    · rcases List.mem_cons.mp hmem with h | hmem
      · exact .inr (.inl (congrArg Prod.fst h))
      · rcases mem_wheelTerms.mp hmem with ⟨hl, h⟩ | ⟨ho, h⟩ | ⟨e, he, h⟩
        · exact .inr (.inr (.inl ⟨hl, congrArg Prod.fst h⟩))
        · exact .inr (.inr (.inr (.inl ⟨ho, congrArg Prod.fst h⟩)))
        · exact .inr (.inr (.inr (.inr ⟨e, he, congrArg Prod.fst h⟩)))
  · rw [hx, leastTerm_head (hx ▸ h)]
    rfl
  · have ht := htail hr
    rw [ht, leastTerm_head (ht ▸ hl)]
    rfl
  · have ht := htail hr
    obtain ⟨hne, hw⟩ := leastTerm_tail (ht ▸ hl)
    exact wheelTerms_least (ht.trans hw) hne

/-- An entry's curve limit (R33). -/
theorem curveLimit_spec (s : State) (v : Nat) (e : LimitPoint) :
    let square := e.limitSpeed * e.limitSpeed + 2 * s.roc.aEff * s.usable v e
    (e.origin = .move → s.arrivedStop = true → s.curveLimit v e = e.limitSpeed) ∧
    (e.origin ≠ .move ∨ ¬s.arrivedStop = true → s.curveLimit v e * s.curveLimit v e ≤ square ∧
      square < (s.curveLimit v e + 1) * (s.curveLimit v e + 1)) := by
  refine ⟨fun hm ha => if_pos ⟨hm, ha⟩, fun h => ?_⟩
  have hroot : s.curveLimit v e = isqrt (e.limitSpeed * e.limitSpeed + 2 * s.roc.aEff * s.usable v e) :=
    if_neg fun ⟨hm, ha⟩ => h.elim (fun h => h hm) fun h => h ha
  rw [hroot]
  exact isqrt_spec _

end Target

/-! ### The overrun check (R37) -/

section Overrun

variable {s u : State} {k : Nat} {e x : LimitPoint}

/-- The check of a DOOR entry that has been passed by more than the allowance. -/
theorem overrunEntry_due (ho : e.origin = .door k) (hr : e.overrunReported = false) (hd : e.remaining < -(s.cfs.zones.o : Int)) :
    overrunEntry s e = report .stopOverrun (some k) (markOverrun (.door k) s) := by
  simp only [overrunEntry, ho, hr, hd, and_self, ↓reduceIte]

theorem overrunEntry_idle (h : ∀ k, e.origin = .door k → e.overrunReported = true ∨ -(s.cfs.zones.o : Int) ≤ e.remaining) :
    overrunEntry s e = s := by
  unfold overrunEntry
  split
  · next k hk =>
    refine if_neg fun ⟨hr, hd⟩ => ?_
    rcases h k hk with ht | hle
    · exact Bool.noConfusion (hr.symm.trans ht)
    · exact absurd hd (Int.not_lt.mpr hle)
  · rfl
  · rfl

/-- A report leaves every cabin's DOOR entry. -/
theorem report_limit (c : FaultCode) (j : Option Nat) (s : State) (k : Nat) :
    (report c j s).limit (.door k) = s.limit (.door k) := by
  obtain ⟨f, l, h, -⟩ := report_beside c j s
  exact h.limit k

theorem find_marked {o p : LimitOrigin} (l : List LimitPoint) :
    ((l.map fun e => if e.origin = o then { e with overrunReported := true } else e).find? fun e => e.origin == p) =
      (l.find? fun e => e.origin == p).map fun e => if e.origin = o then { e with overrunReported := true } else e := by
  rw [List.find?_map]
  congr 1
  refine find_of_agree fun e _ => ?_
  by_cases he : e.origin = o <;> simp [he]

theorem markOverrun_limit (o p : LimitOrigin) (s : State) : (markOverrun o s).limit p =
    (s.limit p).map fun e => if e.origin = o then { e with overrunReported := true } else e := find_marked s.roc.limits

theorem overrunEntry_limit_other (h : x.origin ≠ .door k) (s : State) : (overrunEntry s x).limit (.door k) = s.limit (.door k) := by
  unfold overrunEntry
  split
  · next j hj =>
    split
    · rw [report_limit, markOverrun_limit]
      cases hl : s.limit (.door k) with
      | none => rfl
      | some e =>
        have ho : e.origin = .door k := by simpa using List.find?_some hl
        rw [Option.map_some, if_neg (by rw [ho]; exact Ne.symm h)]
    · rfl
  · rfl
  · rfl

theorem overrun_limit_others {l : List LimitPoint} (h : ∀ x ∈ l, x.origin ≠ .door k) :
    ∀ s : State, (l.foldl overrunEntry s).limit (.door k) = s.limit (.door k) := by
  induction l with
  | nil => exact fun _ => rfl
  | cons x l ih =>
    exact fun s => (ih (fun y hy => h y (List.mem_cons_of_mem _ hy)) _).trans (overrunEntry_limit_other (h x List.mem_cons_self) s)

theorem overrun_event (l : List LimitPoint) (s : State) : Event s (l.foldl overrunEntry s) := .foldl _ overrunEntry_event l s

theorem overrun_mask (l : List LimitPoint) (s : State) (b : BankId) : ((l.foldl overrunEntry s).bank b).mask = (s.bank b).mask :=
  (Chain.foldl (C := fun _ => True) _ (fun s e => overrunEntry_chain trivial s e) l s).owned.masks b

/-- An unmasked STOP_OVERRUN leaves the ROTATION bank at PARK. -/
theorem stopOverrun_parks (j : Option Nat) (hm : (s.bank .rotation).mask.getLsbD 3 = false) :
    ((report .stopOverrun j s).bank .rotation).hold = some .park :=
  (report_bank_hold (c := .stopOverrun) j rfl hm).trans (ite_self _)

theorem overrunEntry_hold (h : (s.bank .rotation).hold = some .park) (e : LimitPoint) :
    ((overrunEntry s e).bank .rotation).hold = some .park := by
  unfold overrunEntry
  split
  · split
    · cases hm : ((markOverrun e.origin s).bank .rotation).masks .stopOverrun with
      | true => rw [report_masked (code := .stopOverrun) _ hm]; exact h
      | false => exact stopOverrun_parks _ hm
    · exact h
  · exact h
  · exact h

theorem overrun_hold (l : List LimitPoint) : ∀ s : State, (s.bank .rotation).hold = some .park →
    ((l.foldl overrunEntry s).bank .rotation).hold = some .park := by
  induction l with
  | nil => exact fun _ h => h
  | cons x l ih => exact fun s h => ih _ (overrunEntry_hold h x)

/-- A passed DOOR entry is marked and reported once (R37). -/
theorem overrunCheck_due (hd : (s.roc.limits.map LimitPoint.origin).Nodup) (he : e ∈ s.roc.limits) (ho : e.origin = .door k)
    (hr : e.overrunReported = false) (hpast : e.remaining < -(s.cfs.zones.o : Int)) :
    (overrunCheck s).limit (.door k) = some { e with overrunReported := true } ∧
      ((s.bank .rotation).mask.getLsbD 3 = false → ((overrunCheck s).bank .rotation).hold = some .park) := by
  obtain ⟨before, after, hl⟩ := List.append_of_mem he
  rw [hl, List.map_append, List.map_cons, ho] at hd
  have hdistinct := List.nodup_append.mp hd
  have hbefore : ∀ x ∈ before, x.origin ≠ .door k := fun x hx h =>
    hdistinct.2.2 _ (List.mem_map_of_mem hx) _ List.mem_cons_self h
  have hafter : ∀ x ∈ after, x.origin ≠ .door k := fun x hx h =>
    (List.nodup_cons.mp hdistinct.2.1).1 (h ▸ List.mem_map_of_mem hx)
  have hfound : s.limit (.door k) = some e := by
    have hno : before.find? (fun x => x.origin == LimitOrigin.door k) = none :=
      List.find?_eq_none.mpr fun x hx h => hbefore x hx (by simpa using h)
    rw [State.limit, hl, List.find?_append, hno, Option.none_or, List.find?_cons_of_pos (by simp [ho])]
  have hcheck : overrunCheck s = after.foldl overrunEntry (overrunEntry (before.foldl overrunEntry s) e) := by
    rw [overrunCheck, hl, List.foldl_append, List.foldl_cons]
  have hcfs : (before.foldl overrunEntry s).cfs = s.cfs := (overrun_event before s).cfs
  rw [hcheck, overrunEntry_due ho hr (by rw [hcfs]; exact hpast)]
  refine ⟨?_, fun hm => overrun_hold after _ (stopOverrun_parks _ ?_)⟩
  · rw [overrun_limit_others hafter, report_limit, markOverrun_limit, overrun_limit_others hbefore, hfound, Option.map_some,
      if_pos ho]
  · rw [← overrun_mask before s] at hm
    exact hm

theorem overrunCheck_idle
    (h : ∀ e ∈ s.roc.limits, ∀ k, e.origin = .door k → e.overrunReported = true ∨ -(s.cfs.zones.o : Int) ≤ e.remaining) :
    overrunCheck s = s := by
  have hall (l : List LimitPoint) (hl : ∀ e ∈ l, e ∈ s.roc.limits) : l.foldl overrunEntry s = s := by
    induction l with
    | nil => rfl
    | cons x l ih =>
      rw [List.foldl_cons, overrunEntry_idle (h x (hl x List.mem_cons_self))]
      exact ih fun e he => hl e (List.mem_cons_of_mem _ he)
  exact hall _ fun _ he => he

end Overrun

end Sys2Proof.Machine

/-! Proofs: the door holds of an entry into STANDING, and the update of a running wheel (R23, R34, R39, R91). -/

namespace Sys2Proof.Machine

section Holds

variable {s t : State} {k : Nat} {d : Int} {b : Bool}

/-! ### What a report and a standstill's judgement leave of a cabin -/

/-- Cabin k has its phase, and no pass that was not clean is clean. -/
structure KeepsPass (k : Nat) (s t : State) : Prop where
  phase : (t.cabin k).phase = (s.cabin k).phase
  unclean : (s.cabin k).cleanPass = false → (t.cabin k).cleanPass = false

theorem KeepsPass.of_cabin (h : t.cabin k = s.cabin k) : KeepsPass k s t := ⟨congrArg Cabin.phase h, fun hc => by rw [h, hc]⟩

theorem KeepsPass.trans {u : State} (h : KeepsPass k s t) (i : KeepsPass k t u) : KeepsPass k s u :=
  ⟨i.phase.trans h.phase, i.unclean ∘ h.unclean⟩

theorem Beside.keepsPass (h : Beside s t) (k : Nat) : KeepsPass k s t := .of_cabin (h.cabin k)

/-- A number that no cabin has. -/
theorem setCabin_cabin_absent (c : Cabin) (s : State) (h : ¬(1 ≤ k ∧ k ≤ s.bsq.cabins.length)) :
    (setCabin k c s).cabin k = s.cabin k := by
  cases k with
  | zero => rfl
  | succ k =>
    have hlist : setNth s.bsq.cabins (k + 1) c = s.bsq.cabins := List.set_eq_of_length_le (by omega)
    exact congrArg (fun l => nth l (k + 1) Cabin.cold) hlist

theorem report_keepsPass (x : FaultCode) (j : Option Nat) (s : State) (k : Nat) : KeepsPass k s (report x j s) := by
  refine ⟨report_phase x j s k, fun hc => ?_⟩
  obtain ⟨_, l, h, hl⟩ := report_beside x j s
  rw [h.cabin]
  rcases hl with rfl | ⟨i, rfl⟩
  · exact hc
  · by_cases hk : k = i ∧ 1 ≤ k ∧ k ≤ s.bsq.cabins.length
    · obtain ⟨rfl, hr⟩ := hk
      exact congrArg Cabin.cleanPass (nth_setNth_self s.bsq.cabins k (suspectAfter s.cfs.boarding.k (s.cabin k)) .cold hr)
    · have hsame : (setCabin i (suspectAfter s.cfs.boarding.k (s.cabin i)) s).cabin k = s.cabin k := by
        by_cases hi : k = i
        · subst hi
          exact setCabin_cabin_absent _ s fun hr => hk ⟨rfl, hr⟩
        · exact setCabin_cabin_other s _ hi
      exact (congrArg Cabin.cleanPass hsame).trans hc

theorem setPhase_cabin_other {j : Nat} (h : k ≠ j) (ph : Phase) (s : State) : (setPhase j ph s).cabin k = s.cabin k := by
  have hcabin := setCabin_cabin_other s { s.cabin j with phase := ph } h
  unfold setPhase
  dsimp only
  split
  · exact hcabin
  · exact hcabin

theorem evaluate_cabin_other {j : Nat} (h : k ≠ j) (s : State) : (evaluate j s).cabin k = s.cabin k := by
  unfold evaluate
  split
  · exact (evaluateFails_beside ..).cabin k
  · split
    · exact ((admitGroup_beside ..).cabin k).trans (setCabin_cabin_other _ _ h)
    · exact (evaluateFails_beside ..).cabin k

theorem changeToLoading_cabin_other {j : Nat} (h : k ≠ j) (s : State) : (changeToLoading j s).cabin k = s.cabin k := by
  unfold changeToLoading
  dsimp only
  rw [evaluate_cabin_other h, (settleCabins_beside ..).cabin, setPhase_cabin_other h, setCabin_cabin_other _ _ h]

/-- The judgement of a move at standstill leaves a cabin that is not unloading. -/
theorem judgeMove_cabin (h : (s.cabin k).phase ≠ .unloading) (m : Move) (r : Int) : (judgeMove m r s).cabin k = s.cabin k := by
  have hchanged (sl : Slot) (x : Option Move) : (moveChanged sl x s).cabin k = s.cabin k := (moveChanged_beside ..).cabin k
  unfold judgeMove
  dsimp only
  split
  · split
    · next j hj =>
      split
      · next hp =>
        have hne : k ≠ j := by
          rintro rfl
          rw [hchanged] at hp
          exact h hp
        exact (changeToLoading_cabin_other hne _).trans (hchanged ..)
      · exact hchanged ..
    · exact (finishA_beside ..).cabin k
  · split
    · exact (finishA_beside ..).cabin k
    · split
      · exact (finishA_beside ..).cabin k
      · rfl

theorem moveUpdate_cabin (h : (s.cabin k).phase ≠ .unloading) : (moveUpdate s).cabin k = s.cabin k := by
  unfold moveUpdate
  split
  · split
    · exact judgeMove_cabin h _ _
    · rfl
  · rfl

theorem trackingCheck_keepsPass (b : Bool) (s : State) (k : Nat) : KeepsPass k s (trackingCheck b s) := by
  unfold trackingCheck
  dsimp only
  split
  · exact KeepsPass.trans (t := { s with roc := { s.roc with tracking := 0 } }) (.of_cabin rfl) (report_keepsPass ..)
  · exact .of_cabin rfl

theorem trialUpdate_keepsPass (d : Int) (s : State) (k : Nat) : KeepsPass k s (trialUpdate d s) := by
  obtain ⟨m, a, v, h | ⟨-, -, n, h⟩⟩ := trialUpdate_shape d s
  · rw [h]
    exact .of_cabin rfl
  · rw [h]
    exact KeepsPass.trans (t := { s with mvu := m, roc := { s.roc with aEff := a } }) (.of_cabin rfl)
      ((report_keepsPass ..).trans ((notify_beside ..).keepsPass k))

/-- The rest of an update leaves the pass of a cabin that is not unloading. -/
theorem closeUpdate_keepsPass (h : (s.cabin k).phase ≠ .unloading) (d : Int) (b : Bool) : KeepsPass k s (closeUpdate d b s) := by
  have hbefore := (trackingCheck_keepsPass b s k).trans (trialUpdate_keepsPass d (trackingCheck b s) k)
  exact hbefore.trans (.of_cabin (moveUpdate_cabin (by rw [hbefore.phase]; exact h)))

/-! ### DOOR_HOLD (R91) -/

/-- Cabin k holds its door: DOOR_HOLD, and the pass not clean. -/
def State.holdsDoor (s : State) (k : Nat) : Prop := (s.cabin k).phase = .doorHold ∧ (s.cabin k).cleanPass = false

theorem KeepsPass.holdsDoor (h : KeepsPass k s t) (hs : s.holdsDoor k) : t.holdsDoor k :=
  ⟨h.phase.trans hs.1, h.unclean hs.2⟩

/-- The state of cabin k's door hold before its report. -/
theorem doorHold_eq (k : Nat) (r : Int) (s : State) : ∃ n, doorHold k r s = notify n (report .doorCloseLate (some k)
    (setCabin k { (setPhase k .doorHold s).cabin k with cleanPass := false } (setPhase k .doorHold s))) := ⟨_, rfl⟩

theorem doorHold_keepsPass (j : Nat) (r : Int) (s : State) (k : Nat) : KeepsPass k
    (setCabin j { (setPhase j .doorHold s).cabin j with cleanPass := false } (setPhase j .doorHold s)) (doorHold j r s) := by
  obtain ⟨n, h⟩ := doorHold_eq j r s
  rw [h]
  exact (report_keepsPass ..).trans ((notify_beside ..).keepsPass k)

theorem doorHold_self (hk : 1 ≤ k ∧ k ≤ s.bsq.cabins.length) (r : Int) : (doorHold k r s).holdsDoor k := by
  have hlength : (setPhase k .doorHold s).bsq.cabins.length = s.bsq.cabins.length := (setPhase_event ..).cabins
  have hphase : ((setPhase k .doorHold s).cabin k).phase = .doorHold :=
    congrArg Cabin.phase (setCabin_cabin_self s k { s.cabin k with phase := .doorHold } hk)
  have hset := setCabin_cabin_self (setPhase k .doorHold s) k { (setPhase k .doorHold s).cabin k with cleanPass := false }
    (by rw [hlength]; exact hk)
  exact (doorHold_keepsPass k r s k).holdsDoor ⟨(congrArg Cabin.phase hset).trans hphase, congrArg Cabin.cleanPass hset⟩

theorem doorHold_other {j : Nat} (h : k ≠ j) (r : Int) (s : State) : KeepsPass k s (doorHold j r s) :=
  KeepsPass.trans (.of_cabin ((setCabin_cabin_other _ _ h).trans (setPhase_cabin_other h ..))) (doorHold_keepsPass j r s k)

/-- One entry's part of the door holds at an entry into STANDING. -/
def holdEntry (curve : LimitPoint → Nat) (t : State) (e : LimitPoint) : State :=
  match e.origin with
  | .door k => if (t.cabin k).phase = .closing ∧ curve e = 0 then doorHold k e.remaining t else t
  | .move => t
  | .slow => t

variable {curve : LimitPoint → Nat} {e : LimitPoint} {l : List LimitPoint}

theorem enterDoorHolds_eq (curve : LimitPoint → Nat) (s : State) :
    enterDoorHolds curve s = s.roc.limits.foldl (holdEntry curve) s := rfl

theorem holdEntry_held (he : e.origin = .door k) (hk : 1 ≤ k ∧ k ≤ s.bsq.cabins.length) (hp : (s.cabin k).phase = .closing)
    (hc : curve e = 0) : (holdEntry curve s e).holdsDoor k := by
  simp only [holdEntry, he, hp, hc, and_self, ↓reduceIte]
  exact doorHold_self hk _

/-- An entry leaves a cabin that does not hold its door by it. -/
theorem holdEntry_keepsPass (h : e.origin = .door k → (s.cabin k).phase = .closing → curve e ≠ 0) :
    KeepsPass k s (holdEntry curve s e) := by
  unfold holdEntry
  split
  · next j hj =>
    split
    · next hd =>
      refine doorHold_other ?_ ..
      rintro rfl
      exact h hj hd.1 hd.2
    · exact .of_cabin rfl
  · exact .of_cabin rfl
  · exact .of_cabin rfl

theorem holdEntry_length (curve : LimitPoint → Nat) (s : State) (e : LimitPoint) :
    (holdEntry curve s e).bsq.cabins.length = s.bsq.cabins.length := by
  unfold holdEntry
  split
  · split
    · exact (doorHold_event ..).cabins
    · rfl
  · rfl
  · rfl

theorem holdEntries_stay (h : s.holdsDoor k) : (l.foldl (holdEntry curve) s).holdsDoor k := by
  induction l generalizing s with
  | nil => exact h
  | cons e l ih =>
    refine ih ((holdEntry_keepsPass fun _ hp => ?_).holdsDoor h)
    exact absurd (hp.symm.trans h.1) Phase.noConfusion

/-- A closing cabin with an entry whose curve limit is 0 holds its door in the end. -/
theorem holdEntries_held (hk : 1 ≤ k ∧ k ≤ s.bsq.cabins.length) (hp : (s.cabin k).phase = .closing)
    (he : ∃ e ∈ l, e.origin = .door k ∧ curve e = 0) : (l.foldl (holdEntry curve) s).holdsDoor k := by
  induction l generalizing s with
  | nil =>
    obtain ⟨e, hin, -⟩ := he
    exact absurd hin List.not_mem_nil
  | cons x l ih =>
    by_cases hx : x.origin = .door k ∧ curve x = 0
    · exact holdEntries_stay (s := holdEntry curve s x) (holdEntry_held hx.1 hk hp hx.2)
    · have hpass : KeepsPass k s (holdEntry curve s x) := holdEntry_keepsPass fun ho _ hc => hx ⟨ho, hc⟩
      refine ih (by rw [holdEntry_length]; exact hk) (hpass.phase.trans hp) ?_
      obtain ⟨e, hin, ho⟩ := he
      rcases List.mem_cons.mp hin with rfl | hin
      · exact absurd ho hx
      · exact ⟨e, hin, ho⟩

end Holds

end Sys2Proof.Machine

/-! Proofs: the update of a running wheel (R23, R28, R34, R36, R39, R91). -/

namespace Sys2Proof.Machine

section Running

variable {s t w : State} {d : Int} {b : Bool} {q : Roc} {curve : LimitPoint → Nat}

theorem Wheeled.shown (h : Wheeled s t) : t.roc.target = s.roc.target ∧ t.roc.limiting = s.roc.limiting := by
  obtain ⟨l, a, h | ⟨-, h⟩⟩ := h
  · rw [h]
    exact ⟨rfl, rfl⟩
  · rw [h]
    exact tripRoc_shown s.roc

theorem enterDoorHolds_wheeled (curve : LimitPoint → Nat) (s : State) : Wheeled s (enterDoorHolds curve s) :=
  (enterDoorHolds_late curve s).wheeled

/-- An update whose step was an entry into STANDING with the block q. -/
theorem closeUpdate_held (h : (closeUpdate d b (enterDoorHolds curve { w with roc := q })).roc.rotation ≠ .tripped) :
    ∃ k l a, (closeUpdate d b (enterDoorHolds curve { w with roc := q })).roc =
      { q with tracking := k, limits := l, aEff := a, updateRef := q.driveRef } := by
  obtain ⟨k, l, a, hroc⟩ := closeUpdate_moving h
  have hr : (enterDoorHolds curve { w with roc := q }).roc.rotation ≠ .tripped := fun hr => by
    obtain ⟨_, _, hstays⟩ := closeUpdate_stays_tripped (d := d) (b := b) hr
    exact h (by rw [hstays]; exact hr)
  obtain ⟨_, _, hq⟩ := (enterDoorHolds_wheeled curve { w with roc := q }).moving hr
  exact ⟨k, l, a, by rw [hroc, hq]⟩

theorem rotationStep_running (h : w.roc.rotation = .running) (ht : w.roc.trialStep = false) : rotationStep w = runningStep w := by
  simp only [rotationStep, h, ht, Bool.false_eq_true, ↓reduceIte]

theorem rotationStep_trialStep_eq (h : w.roc.rotation = .running) (ht : w.roc.trialStep = true) :
    rotationStep w = trialStepUpdate w := rotationStep_trialStep ⟨h, ht⟩

theorem runningStep_shown (w : State) : (runningStep w).roc.target = (w.reportedTarget w.roc.vCmd).1 ∧
    (runningStep w).roc.limiting = (w.reportedTarget w.roc.vCmd).2 := by
  by_cases hs : w.ramped.vCmd = 0 ∧ w.ptr.standstill = true
  · rw [runningStep_stands hs.1 hs.2]
    exact (enterDoorHolds_wheeled _ { w with roc := w.ramped.stands }).shown
  · rw [runningStep_runs hs]
    exact ⟨rfl, rfl⟩

theorem trialStepUpdate_shown (w : State) :
    (trialStepUpdate w).roc.target = 0 ∧ (trialStepUpdate w).roc.limiting = .held := by
  cases hs : w.ptr.standstill with
  | true =>
    rw [trialStepUpdate_stands hs]
    exact (enterDoorHolds_wheeled _ { w with roc := (w.roc.reporting (0, .held)).stands }).shown
  | false =>
    rw [trialStepUpdate_moves hs]
    exact ⟨rfl, rfl⟩

theorem rampStep_up {v target a e : Nat} (h : v < target * 1000) : rampStep v target a e = min (target * 1000) (v + a * 50) := if_pos h

theorem rampStep_down {v target a e : Nat} (h : target * 1000 ≤ v) : rampStep v target a e = max (target * 1000) (v - e * 50) :=
  if_neg (Nat.not_lt.mpr h)

/-- A ramp step that leaves the wheel running (R23, R34, R36). -/
theorem closeUpdate_ramps (h : ¬(w.ramped.vCmd = 0 ∧ w.ptr.standstill = true))
    (ht : (closeUpdate d b (runningStep w)).roc.rotation ≠ .tripped) (hw : w.roc.rotation = .running) :
    (closeUpdate d b (runningStep w)).roc.vCmd = w.ramped.vCmd ∧
      (closeUpdate d b (runningStep w)).roc.driveRef = driveWord w.ramped.vCmd ∧
      (closeUpdate d b (runningStep w)).roc.rotation = .running := by
  obtain ⟨k, l, a, hroc⟩ := closeUpdate_moving ht
  rw [hroc, runningStep_runs h]
  exact ⟨rfl, rfl, hw⟩

/-- A ramp step that comes to 0 at standstill: STANDING, and the door holds (R23, R91). -/
theorem closeUpdate_stands (hv : w.ramped.vCmd = 0) (hs : w.ptr.standstill = true)
    (ht : (closeUpdate d b (runningStep w)).roc.rotation ≠ .tripped) :
    let t := closeUpdate d b (runningStep w)
    (t.roc.vCmd = w.ramped.vCmd ∧ t.roc.driveRef = driveWord w.ramped.vCmd) ∧
      (t.roc.rotation = .standing ∧ t.roc.standTimer = some 0) ∧
      ∀ k, 1 ≤ k → k ≤ w.bsq.cabins.length → (w.cabin k).phase = .closing →
        (∃ e ∈ w.roc.limits, e.origin = .door k ∧ w.curveLimit w.roc.vCmd e = 0) → t.holdsDoor k := by
  intro t
  have hstep := runningStep_stands hv hs
  have hword : driveWord w.ramped.vCmd = 0 := by rw [hv]; rfl
  refine ⟨?_, ?_, fun k h1 hn hp he => ?_⟩
  · rw [hstep] at ht
    obtain ⟨k, l, a, hroc⟩ := closeUpdate_held ht
    simp only [t, hstep, hroc, hword]
    exact ⟨rfl, rfl⟩
  · rw [hstep] at ht
    obtain ⟨k, l, a, hroc⟩ := closeUpdate_held ht
    simp only [t, hstep, hroc]
    exact ⟨rfl, rfl⟩
  · have hheld : (runningStep w).holdsDoor k := by
      rw [hstep, enterDoorHolds_eq]
      exact holdEntries_held ⟨h1, hn⟩ hp he
    exact (closeUpdate_keepsPass (by rw [hheld.1]; exact Phase.noConfusion) d b).holdsDoor hheld

/-- An update that takes a ramp step (R23, R34, R36, R91). -/
theorem closeUpdate_running (hw : w.roc.rotation = .running)
    (ht : (closeUpdate d b (runningStep w)).roc.rotation ≠ .tripped) :
    let t := closeUpdate d b (runningStep w)
    let v := w.roc.vCmd
    let goal := (w.speedTarget v).1 * 1000
    (v < goal → t.roc.vCmd = min goal (v + w.cfs.speeds.aAcc * 50)) ∧
      (goal ≤ v → t.roc.vCmd = max goal (v - w.roc.aEff * 50)) ∧ t.roc.driveRef = driveWord t.roc.vCmd ∧
      (t.roc.vCmd ≠ 0 ∨ w.ptr.standstill = false → t.roc.rotation = .running) ∧
      (t.roc.vCmd = 0 → w.ptr.standstill = true → t.roc.rotation = .standing ∧ t.roc.standTimer = some 0 ∧
        ∀ k, 1 ≤ k → k ≤ w.bsq.cabins.length → (w.cabin k).phase = .closing →
          (∃ e ∈ w.roc.limits, e.origin = .door k ∧ w.curveLimit v e = 0) → t.holdsDoor k) := by
  intro t v goal
  have hup (h : v < goal) : w.ramped.vCmd = min goal (v + w.cfs.speeds.aAcc * 50) := rampStep_up h
  have hdown (h : goal ≤ v) : w.ramped.vCmd = max goal (v - w.roc.aEff * 50) := rampStep_down h
  by_cases hstop : w.ramped.vCmd = 0 ∧ w.ptr.standstill = true
  · obtain ⟨⟨hv, hword⟩, hstand, hdoors⟩ := closeUpdate_stands (d := d) (b := b) hstop.1 hstop.2 ht
    rw [← hv] at hup hdown hword hstop
    refine ⟨hup, hdown, hword, fun h => ?_, fun _ _ => ⟨hstand.1, hstand.2, hdoors⟩⟩
    rcases h with h | h
    · exact absurd hstop.1 h
    · exact Bool.noConfusion (hstop.2.symm.trans h)
  · obtain ⟨hv, hword, hrunning⟩ := closeUpdate_ramps (d := d) (b := b) hstop ht hw
    rw [← hv] at hup hdown hword hstop
    exact ⟨hup, hdown, hword, fun _ => hrunning, fun h0 hs => absurd ⟨h0, hs⟩ hstop⟩

/-- An update under a trial step (R39). -/
theorem closeUpdate_waits (ht : (closeUpdate d b (trialStepUpdate w)).roc.rotation ≠ .tripped) (hw : w.roc.rotation = .running)
    (htrial : w.roc.trialStep = true) :
    let t := closeUpdate d b (trialStepUpdate w)
    t.roc.vCmd = w.roc.vCmd ∧ t.roc.driveRef = 0 ∧
      (w.ptr.standstill = true → t.roc.rotation = .standing ∧ t.roc.standTimer = some 0 ∧ t.roc.trialStep = false) ∧
      (w.ptr.standstill = false → t.roc.rotation = .running ∧ t.roc.trialStep = true) := by
  intro t
  cases hs : w.ptr.standstill with
  | true =>
    have hstep := trialStepUpdate_stands hs
    rw [hstep] at ht
    obtain ⟨k, l, a, hroc⟩ := closeUpdate_held ht
    simp only [t, hstep, hroc]
    exact ⟨rfl, rfl, fun _ => ⟨rfl, rfl, rfl⟩, nofun⟩
  | false =>
    have hstep := trialStepUpdate_moves hs
    rw [hstep] at ht
    obtain ⟨k, l, a, hroc⟩ := closeUpdate_moving ht
    simp only [t, hstep, hroc]
    exact ⟨rfl, rfl, nofun, fun _ => ⟨hw, htrial⟩⟩

end Running

/-- Settles O13: the step of a running wheel and what the rest of the update leaves of it; the terms of the speed target;
the overrun check, entry by entry. -/
theorem runningUpdateRamps : Obligations.RunningUpdateRamps := by
  unfold Obligations.RunningUpdateRamps
  refine ⟨fun s hrun => ?_, fun s v => ?_, fun s hd => ⟨fun e he k ho hr hp => overrunCheck_due hd he ho hr hp, overrunCheck_idle⟩⟩
  · intro w v goal hw
    have hmoving : w.roc.rotation ≠ .tripped := by rw [hw]; exact Rotation.noConfusion
    obtain ⟨htarget, hlimiting⟩ := closeUpdate_shown s.ptr.delta w.roc.trialStep (rotationStep w)
    refine ⟨_, exec_controlUpdate hrun, fun hs => controlUpdate_tripsAtPark hs hmoving, rfl, fun ht => ?_, fun ht => ?_, ?_⟩
    · rw [controlUpdate_eq, htarget, hlimiting, rotationStep_running hw ht]
      exact runningStep_shown w
    · rw [controlUpdate_eq, htarget, hlimiting, rotationStep_trialStep_eq hw ht]
      exact trialStepUpdate_shown w
    · have hupdate : controlUpdate s = closeUpdate s.ptr.delta w.roc.trialStep (rotationStep w) := rfl
      rw [hupdate]
      clear_value w
      by_cases htripped : (closeUpdate s.ptr.delta w.roc.trialStep (rotationStep w)).roc.rotation = .tripped
      · exact .inl htripped
      refine .inr ⟨fun ht => ?_, fun ht => ?_⟩
      · rw [rotationStep_running hw ht] at htripped ⊢
        exact closeUpdate_running hw htripped
      · rw [rotationStep_trialStep_eq hw ht] at htripped ⊢
        exact closeUpdate_waits htripped hw ht
  · intro r run cap board lost out arrived
    have hcap : s.levelTerm.1 = cap := by
      unfold State.levelTerm Speeds.levelCap
      cases hl : s.hlu.effective <;> simp only [cap, hl]
    obtain ⟨hrun, hlevel, hlost, hout, hcurves, hone, hoff, hheld, hwheel⟩ := speedTarget_least s v
    rw [hcap] at hlevel hone hheld hwheel
    refine ⟨hrun, hlevel, hlost, hout, hcurves, hone, hoff, hheld, hwheel, fun e => ?_⟩
    intro distance square
    have harrived : s.arrivedStop = true ↔ arrived := arrivedStop_iff
    obtain ⟨hstop, hcurve⟩ := curveLimit_spec s v e
    exact ⟨fun hm ha => hstop hm (harrived.mpr ha), fun h => hcurve (h.imp id fun h ha => h (harrived.mp ha))⟩

end Sys2Proof.Machine

/-! Proofs: the crossings of an update, cabin by cabin from the greatest position and line by line (R9, R10). -/

namespace Sys2Proof.Machine

/-! ### The order of the cabins (R9) -/

section Order

variable {f : Nat → Int} {k : Nat} {l : List Nat}

theorem insertByPosition_perm (f : Nat → Int) (k : Nat) (l : List Nat) : (insertByPosition f k l).Perm (k :: l) := by
  induction l with
  | nil => exact .refl _
  | cons j js ih =>
    rw [insertByPosition]
    split
    · exact .refl _
    · exact (ih.cons j).trans (.swap k j js)

theorem byPosition_perm (f : Nat → Int) (l : List Nat) : (byPosition f l).Perm l := by
  induction l with
  | nil => exact .refl _
  | cons k l ih => exact (insertByPosition_perm f k _).trans (ih.cons k)

theorem insertByPosition_sorted (h : l.Pairwise fun a b => f b ≤ f a) : (insertByPosition f k l).Pairwise fun a b => f b ≤ f a := by
  induction l with
  | nil => exact List.pairwise_singleton _ k
  | cons j js ih =>
    obtain ⟨hj, hjs⟩ := List.pairwise_cons.mp h
    rw [insertByPosition]
    split
    · next hle =>
      refine List.pairwise_cons.mpr ⟨fun b hb => ?_, h⟩
      rcases List.mem_cons.mp hb with rfl | hb
      · exact hle
      · exact Int.le_trans (hj b hb) hle
    · next hlt =>
      refine List.pairwise_cons.mpr ⟨fun b hb => ?_, ih hjs⟩
      rcases List.mem_cons.mp ((insertByPosition_perm f k js).mem_iff.mp hb) with rfl | hb
      · exact Int.le_of_lt (Int.not_le.mp hlt)
      · exact hj b hb

theorem byPosition_sorted (f : Nat → Int) (l : List Nat) : (byPosition f l).Pairwise fun a b => f b ≤ f a := by
  induction l with
  | nil => exact List.Pairwise.nil
  | cons k l ih => exact insertByPosition_sorted ih

/-- Any two entries of a list that a relation orders are related, one way or the other. -/
theorem related_of_pairwise {α : Type} {R : α → α → Prop} {l : List α} (h : l.Pairwise R) {a b : α} (ha : a ∈ l) (hb : b ∈ l)
    (hne : a ≠ b) : R a b ∨ R b a := by
  induction h with
  | nil => exact absurd ha List.not_mem_nil
  | cons hx _ ih =>
    rcases List.mem_cons.mp ha with rfl | hal
    · rcases List.mem_cons.mp hb with rfl | hbl
      · exact absurd rfl hne
      · exact .inl (hx b hbl)
    · rcases List.mem_cons.mp hb with rfl | hbl
      · exact .inr (hx a hal)
      · exact ih hal hbl

end Order

section Raise

variable {s u : State} {k j : Nat} {ln : PlatformLine} {l : List PlatformLine}

/-! ### One crossing (R9, R10) -/

/-- One crossing, with the record that takes it (R10, R81). -/
def raise (c : Nat × PlatformLine) (u : State) : State :=
  crossing c.1 c.2 (noteSlowCrossed c.1 c.2 (setPassRecord c.1 (some c.2) u))

theorem noteSlowCrossed_read (k : Nat) (ln : PlatformLine) (u : State) :
    (noteSlowCrossed k ln u).ptr = u.ptr ∧ (noteSlowCrossed k ln u).cfs = u.cfs := by
  unfold noteSlowCrossed
  split <;> exact ⟨rfl, rfl⟩

theorem raise_ptr (c : Nat × PlatformLine) (u : State) : (raise c u).ptr = (setPassRecord c.1 (some c.2) u).ptr :=
  (crossing_event ..).ptr.trans (noteSlowCrossed_read ..).1

theorem raise_cfs (c : Nat × PlatformLine) (u : State) : (raise c u).cfs = u.cfs :=
  (crossing_event ..).cfs.trans (noteSlowCrossed_read ..).2

theorem raise_angle (c : Nat × PlatformLine) (u : State) : (raise c u).ptr.angle = u.ptr.angle :=
  (congrArg Ptr.angle (raise_ptr c u)).trans rfl

theorem raise_length (c : Nat × PlatformLine) (u : State) :
    (raise c u).ptr.passRecords.length = u.ptr.passRecords.length := by
  rw [raise_ptr]
  exact length_setNth ..

theorem passRecord_of_ptr {t : State} (h : t.ptr = s.ptr) (k : Nat) : t.passRecord k = s.passRecord k := by
  rw [State.passRecord, h, State.passRecord]

theorem raise_passRecord_other (h : j ≠ k) (ln : PlatformLine) (u : State) : (raise (k, ln) u).passRecord j = u.passRecord j :=
  (passRecord_of_ptr (raise_ptr ..) j).trans (setPassRecord_passRecord_other _ _ h)

theorem raise_passRecord_self (h : 1 ≤ k ∧ k ≤ u.ptr.passRecords.length) (ln : PlatformLine) :
    (raise (k, ln) u).passRecord k = some ln :=
  (passRecord_of_ptr (raise_ptr ..) k).trans (nth_setNth_self _ _ _ _ h)

/-- A record that there is not stays so. -/
theorem raise_passRecord_absent (h : ¬(1 ≤ k ∧ k ≤ u.ptr.passRecords.length)) (ln : PlatformLine) :
    (raise (k, ln) u).passRecord k = u.passRecord k := by
  refine (passRecord_of_ptr (raise_ptr ..) k).trans ?_
  cases k with
  | zero => rfl
  | succ k =>
    have hlist : setNth u.ptr.passRecords (k + 1) (some ln) = u.ptr.passRecords := List.set_eq_of_length_le (by omega)
    exact congrArg (fun l => nth l (k + 1) none) hlist

/-! ### One cabin's crossings -/

/-- The lines of a list that come after a cabin's record. -/
def linesAfter (r : Option PlatformLine) (l : List PlatformLine) : List PlatformLine :=
  l.filter fun ln => decide (lineRank r < lineRank (some ln))

theorem linesAfter_all {r : Option PlatformLine} (h : ∀ m ∈ l, lineRank r < lineRank (some m)) : linesAfter r l = l :=
  List.filter_eq_self.mpr fun m hm => decide_eq_true (h m hm)

theorem linesAfter_cons_after {r : Option PlatformLine} (h : lineRank r < lineRank (some ln)) :
    linesAfter r (ln :: l) = ln :: linesAfter r l := List.filter_cons_of_pos (decide_eq_true h)

theorem linesAfter_cons_before {r : Option PlatformLine} (h : ¬lineRank r < lineRank (some ln)) :
    linesAfter r (ln :: l) = linesAfter r l := List.filter_cons_of_neg (by simpa using h)

/-- The lines of an ascending list are raised from the first that comes after the record on (R10). -/
theorem raiseCrossings_lines (hl : l.Pairwise fun m n => lineRank (some m) < lineRank (some n)) (k : Nat) (u : State) :
    l.foldl (raiseCrossing k) u = (linesAfter (u.passRecord k) l).foldl (fun u ln => raise (k, ln) u) u := by
  induction l generalizing u with
  | nil => rfl
  | cons ln l ih =>
    obtain ⟨hfirst, hrest⟩ := List.pairwise_cons.mp hl
    by_cases hr : lineRank (u.passRecord k) < lineRank (some ln)
    · have hstep : raiseCrossing k u ln = raise (k, ln) u := if_pos hr
      have hlater : linesAfter ((raise (k, ln) u).passRecord k) l = linesAfter (u.passRecord k) l := by
        by_cases hk : 1 ≤ k ∧ k ≤ u.ptr.passRecords.length
        · rw [raise_passRecord_self hk, linesAfter_all hfirst, linesAfter_all fun m hm => Nat.lt_trans hr (hfirst m hm)]
        · rw [raise_passRecord_absent hk]
      rw [List.foldl_cons, hstep, ih hrest, hlater, linesAfter_cons_after hr, List.foldl_cons]
    · have hstep : raiseCrossing k u ln = u := if_neg hr
      rw [List.foldl_cons, hstep, ih hrest, linesAfter_cons_before hr]

/-- The record after a cabin's crossings: the last line raised (R10). -/
theorem raised_passRecord (h : 1 ≤ k ∧ k ≤ u.ptr.passRecords.length) :
    (l.foldl (fun u ln => raise (k, ln) u) u).passRecord k = l.getLast?.or (u.passRecord k) := by
  induction l generalizing u with
  | nil => rfl
  | cons ln l ih =>
    rw [List.foldl_cons, ih (by rw [raise_length]; exact h), raise_passRecord_self h, List.getLast?_cons]
    cases l.getLast? <;> rfl

theorem raised_passRecord_other (h : j ≠ k) (l : List PlatformLine) :
    ∀ u : State, (l.foldl (fun u ln => raise (k, ln) u) u).passRecord j = u.passRecord j := by
  induction l with
  | nil => exact fun _ => rfl
  | cons ln l ih => exact fun u => (ih _).trans (raise_passRecord_other h ln u)

theorem raised_read (k : Nat) (l : List PlatformLine) (u : State) :
    (l.foldl (fun u ln => raise (k, ln) u) u).ptr.angle = u.ptr.angle ∧ (l.foldl (fun u ln => raise (k, ln) u) u).cfs = u.cfs ∧
      (l.foldl (fun u ln => raise (k, ln) u) u).ptr.passRecords.length = u.ptr.passRecords.length :=
  ⟨foldl_keeps (fun u => u.ptr.angle) _ (fun _ _ => raise_angle ..) l u, foldl_keeps State.cfs _ (fun _ _ => raise_cfs ..) l u,
    foldl_keeps (fun u => u.ptr.passRecords.length) _ (fun _ _ => raise_length ..) l u⟩

/-! ### All cabins' crossings (R9) -/

/-- The lines that a cabin's forward movement from the angle before raises (R9, R10). -/
def State.linesRaised (s : State) (before : Nat) (k : Nat) : List PlatformLine :=
  linesAfter (s.passRecord k)
    (s.cfs.zones.passed (s.cfs.geometry.position before k) (s.cfs.geometry.position s.ptr.angle k))

theorem mem_linesRaised {before : Nat} : ln ∈ s.linesRaised before k ↔
    s.cfs.geometry.position before k < s.cfs.zones.line ln ∧ s.cfs.zones.line ln ≤ s.cfs.geometry.position s.ptr.angle k ∧
      lineRank (s.passRecord k) < lineRank (some ln) := by
  simp only [State.linesRaised, linesAfter, Zones.passed, List.mem_filter, mem_allLines, true_and, decide_eq_true_eq, and_assoc]

theorem allLines_increasing : allLines.Pairwise fun m n => lineRank (some m) < lineRank (some n) := by decide

theorem linesRaised_increasing (s : State) (before k : Nat) :
    (s.linesRaised before k).Pairwise fun m n => lineRank (some m) < lineRank (some n) :=
  (allLines_increasing.filter _).filter _

theorem raiseCabin_eq (before : Nat) (u : State) (k : Nat) :
    raiseCabin before u k = (u.linesRaised before k).foldl (fun u ln => raise (k, ln) u) u :=
  raiseCrossings_lines (allLines_increasing.filter _) k u

/-- u moves as s does, and has its records of the cabins of L. -/
def SameRecords (L : List Nat) (s u : State) : Prop :=
  u.cfs = s.cfs ∧ u.ptr.angle = s.ptr.angle ∧ u.ptr.passRecords.length = s.ptr.passRecords.length ∧
    ∀ k ∈ L, u.passRecord k = s.passRecord k

variable {L : List Nat} {before : Nat}

theorem SameRecords.linesRaised (h : SameRecords L s u) (hk : k ∈ L) : u.linesRaised before k = s.linesRaised before k := by
  obtain ⟨hcfs, hangle, -, hrecord⟩ := h
  rw [State.linesRaised, State.linesRaised, hcfs, hangle, hrecord k hk]

theorem SameRecords.raised {k : Nat} (h : SameRecords (k :: L) s u) (hn : k ∉ L) (l : List PlatformLine) :
    SameRecords L s (l.foldl (fun u ln => raise (k, ln) u) u) := by
  obtain ⟨hcfs, hangle, hlength, hrecord⟩ := h
  obtain ⟨ha, hc, hl⟩ := raised_read k l u
  refine ⟨hc.trans hcfs, ha.trans hangle, hl.trans hlength, fun j hj => ?_⟩
  have hne : j ≠ k := by
    rintro rfl
    exact hn hj
  exact (raised_passRecord_other hne l u).trans (hrecord j (List.mem_cons_of_mem _ hj))

/-- The crossings of the cabins of L, in its order. -/
def State.pairsRaised (s : State) (before : Nat) (L : List Nat) : List (Nat × PlatformLine) :=
  L.flatMap fun k => (s.linesRaised before k).map fun ln => (k, ln)

theorem pairsRaised_cons (s : State) (before k : Nat) (L : List Nat) :
    s.pairsRaised before (k :: L) = (s.linesRaised before k).map (fun ln => (k, ln)) ++ s.pairsRaised before L :=
  List.flatMap_cons

theorem raiseCabins_eq (hL : L.Nodup) (h : SameRecords L s u) :
    L.foldl (raiseCabin before) u = (s.pairsRaised before L).foldl (fun u c => raise c u) u := by
  induction L generalizing u with
  | nil => rfl
  | cons k L ih =>
    obtain ⟨hn, hL⟩ := List.nodup_cons.mp hL
    have hstep : raiseCabin before u k = (s.linesRaised before k).foldl (fun u ln => raise (k, ln) u) u := by
      rw [raiseCabin_eq, h.linesRaised List.mem_cons_self]
    rw [List.foldl_cons, hstep, ih hL (h.raised hn _), pairsRaised_cons, List.foldl_append, List.foldl_map]

/-- The records after the crossings of the cabins of L (R10). -/
theorem raiseCabins_passRecord (hL : L.Nodup) (h : SameRecords L s u) (hk : 1 ≤ k ∧ k ≤ s.ptr.passRecords.length) :
    (k ∈ L → (L.foldl (raiseCabin before) u).passRecord k = (s.linesRaised before k).getLast?.or (s.passRecord k)) ∧
    (k ∉ L → (L.foldl (raiseCabin before) u).passRecord k = u.passRecord k) := by
  induction L generalizing u with
  | nil => exact ⟨fun hin => absurd hin List.not_mem_nil, fun _ => rfl⟩
  | cons j L ih =>
    obtain ⟨hn, hL⟩ := List.nodup_cons.mp hL
    have hstep : raiseCabin before u j = (s.linesRaised before j).foldl (fun u ln => raise (j, ln) u) u := by
      rw [raiseCabin_eq, h.linesRaised List.mem_cons_self]
    obtain ⟨hin, hout⟩ := ih hL (h.raised hn (s.linesRaised before j))
    rw [List.foldl_cons, hstep]
    refine ⟨fun hmem => ?_, fun hmem => ?_⟩
    · rcases List.mem_cons.mp hmem with rfl | hmem
      · obtain ⟨-, -, hlength, hrecord⟩ := h
        rw [hout hn, raised_passRecord (by rw [hlength]; exact hk), hrecord k List.mem_cons_self]
      · exact hin hmem
    · obtain ⟨hne, hnot⟩ := not_or.mp (fun hor => hmem (List.mem_cons.mpr hor))
      exact (hout hnot).trans (raised_passRecord_other hne _ u)

end Raise

end Sys2Proof.Machine

/-! Proofs: the control update up to the overrun check (R3 to R14, R32). -/

namespace Sys2Proof.Machine

section Passes

variable {s u : State} {k : Nat} {before : Nat}

/-! ### The crossings as one ordered list (R9) -/

/-- The order of the crossings: cabins by position, the greatest first, and a cabin's lines in line order. -/
def crossedBefore (f : Nat → Int) (a b : Nat × PlatformLine) : Prop :=
  f b.1 < f a.1 ∨ (a.1 = b.1 ∧ lineRank (some a.2) < lineRank (some b.2))

theorem crossedBefore_ne {f : Nat → Int} {a b : Nat × PlatformLine} (h : crossedBefore f a b) : a ≠ b := by
  rintro rfl
  rcases h with h | ⟨-, h⟩
  · exact Int.lt_irrefl _ h
  · exact Nat.lt_irrefl _ h

theorem crossedBefore_asymm {f : Nat → Int} {a b : Nat × PlatformLine} (h : crossedBefore f a b) : ¬crossedBefore f b a := by
  rintro (k | ⟨hk, hlt⟩)
  · rcases h with h | ⟨h, -⟩
    · exact Int.lt_irrefl _ (Int.lt_trans h k)
    · rw [h] at k
      exact Int.lt_irrefl _ k
  · rcases h with h | ⟨-, h⟩
    · rw [hk] at h
      exact Int.lt_irrefl _ h
    · exact Nat.lt_irrefl _ (Nat.lt_trans h hlt)

/-- The cabins that pass a line at an update, in the order of their crossings. -/
def State.movedCabins (s : State) (before : Nat) : List Nat :=
  byPosition (s.cfs.geometry.position s.ptr.angle) (s.cfs.geometry.cabins.filter fun k =>
    !(s.cfs.zones.passed (s.cfs.geometry.position before k) (s.cfs.geometry.position s.ptr.angle k)).isEmpty)

theorem raiseCrossings_eq (before : Nat) (s : State) :
    raiseCrossings before s = (s.movedCabins before).foldl (raiseCabin before) s := rfl

theorem mem_cabins {g : Geometry} : k ∈ g.cabins ↔ 1 ≤ k ∧ k ≤ g.n := by
  rw [Geometry.cabins, List.mem_map]
  constructor
  · rintro ⟨i, hi, rfl⟩
    have := List.mem_range.mp hi
    omega
  · rintro ⟨h1, hn⟩
    exact ⟨k - 1, List.mem_range.mpr (by omega), Nat.sub_add_cancel h1⟩

theorem cabins_nodup (g : Geometry) : g.cabins.Nodup :=
  List.pairwise_map.mpr (List.nodup_range.imp fun hne heq => hne (Nat.succ.inj heq))

theorem movedCabins_nodup (s : State) (before : Nat) : (s.movedCabins before).Nodup :=
  (byPosition_perm _ _).nodup_iff.mpr ((cabins_nodup _).filter _)

theorem mem_movedCabins : k ∈ s.movedCabins before ↔ (1 ≤ k ∧ k ≤ s.cfs.geometry.n) ∧
    s.cfs.zones.passed (s.cfs.geometry.position before k) (s.cfs.geometry.position s.ptr.angle k) ≠ [] := by
  rw [State.movedCabins, (byPosition_perm _ _).mem_iff, List.mem_filter, mem_cabins]
  simp

theorem moved_of_raised {ln : PlatformLine} (hk : 1 ≤ k ∧ k ≤ s.cfs.geometry.n) (h : ln ∈ s.linesRaised before k) :
    k ∈ s.movedCabins before :=
  mem_movedCabins.mpr ⟨hk, List.ne_nil_of_mem ((List.mem_filter.mp h).1)⟩

theorem mem_pairsRaised {ln : PlatformLine} : (k, ln) ∈ s.pairsRaised before (s.movedCabins before) ↔
    (1 ≤ k ∧ k ≤ s.cfs.geometry.n) ∧ ln ∈ s.linesRaised before k := by
  simp only [State.pairsRaised, List.mem_flatMap, List.mem_map, Prod.mk.injEq]
  constructor
  · rintro ⟨j, hj, m, hm, rfl, rfl⟩
    exact ⟨(mem_movedCabins.mp hj).1, hm⟩
  · rintro ⟨hk, hln⟩
    exact ⟨k, moved_of_raised hk hln, ln, hln, rfl, rfl⟩

/-- A list of the crossings that is ordered is the list in which they are raised. -/
theorem pairsRaised_unique {raised : List (Nat × PlatformLine)}
    (hmem : ∀ k ln, (k, ln) ∈ raised ↔ (1 ≤ k ∧ k ≤ s.cfs.geometry.n) ∧ ln ∈ s.linesRaised before k)
    (hsorted : raised.Pairwise (crossedBefore (s.cfs.geometry.position s.ptr.angle))) :
    s.pairsRaised before (s.movedCabins before) = raised := by
  have hsame (c : Nat × PlatformLine) : c ∈ s.pairsRaised before (s.movedCabins before) ↔ c ∈ raised :=
    mem_pairsRaised.trans (hmem c.1 c.2).symm
  have hcabin (k : Nat) : ((s.linesRaised before k).map fun ln => (k, ln)).Pairwise
      (crossedBefore (s.cfs.geometry.position s.ptr.angle)) :=
    List.pairwise_map.mpr ((linesRaised_increasing s before k).imp fun h => .inr ⟨rfl, h⟩)
  have hcabins : (s.movedCabins before).Pairwise fun j k => ∀ a ∈ (s.linesRaised before j).map fun ln => (j, ln),
      ∀ b ∈ (s.linesRaised before k).map fun ln => (k, ln), crossedBefore (s.cfs.geometry.position s.ptr.angle) a b := by
    refine ((byPosition_sorted _ _).and (movedCabins_nodup s before)).imp_of_mem fun {j k} hj hk hle => ?_
    intro a ha b hb
    obtain ⟨m, hm, rfl⟩ := List.mem_map.mp ha
    obtain ⟨n, hn, rfl⟩ := List.mem_map.mp hb
    have hin (i : Nat) (hi : i ∈ s.movedCabins before) (ln : PlatformLine) (h : ln ∈ s.linesRaised before i) : (i, ln) ∈ raised :=
      (hmem i ln).mpr ⟨(mem_movedCabins.mp hi).1, h⟩
    rcases related_of_pairwise hsorted (hin j hj m hm) (hin k hk n hn) fun h => hle.2 (congrArg Prod.fst h) with h | h
    · exact h
    · rcases h with h | ⟨h, -⟩
      · exact absurd h (Int.not_lt.mpr hle.1)
      · exact absurd h.symm hle.2
  have hpairs : (s.pairsRaised before (s.movedCabins before)).Pairwise (crossedBefore (s.cfs.geometry.position s.ptr.angle)) :=
    List.pairwise_flatMap.mpr ⟨fun k _ => hcabin k, hcabins⟩
  have hdistinct {l : List (Nat × PlatformLine)} (h : l.Pairwise (crossedBefore (s.cfs.geometry.position s.ptr.angle))) :
      l.Nodup := List.Pairwise.imp (S := fun a b => a ≠ b) crossedBefore_ne h
  exact List.Perm.eq_of_pairwise (fun a b _ _ h h' => absurd h' (crossedBefore_asymm h)) hpairs hsorted
    ((List.perm_ext_iff_of_nodup (hdistinct hpairs) (hdistinct hsorted)).mpr hsame)

/-! ### The records after the crossings (R10) -/

theorem lineRank_injective {m n : PlatformLine} (h : lineRank (some m) = lineRank (some n)) : m = n := by
  revert h
  cases m <;> cases n <;> decide

theorem raiseCrossings_passRecord (hk : 1 ≤ k ∧ k ≤ s.cfs.geometry.n) (hl : k ≤ s.ptr.passRecords.length) (before : Nat) :
    (raiseCrossings before s).passRecord k = (s.linesRaised before k).getLast?.or (s.passRecord k) := by
  have hsame : SameRecords (s.movedCabins before) s s := ⟨rfl, rfl, rfl, fun _ _ => rfl⟩
  obtain ⟨hin, hout⟩ := raiseCabins_passRecord (before := before) (movedCabins_nodup s before) hsame ⟨hk.1, hl⟩
  rw [raiseCrossings_eq]
  by_cases hm : k ∈ s.movedCabins before
  · exact hin hm
  · have hnone : s.linesRaised before k = [] :=
      List.eq_nil_iff_forall_not_mem.mpr fun ln hln => hm (moved_of_raised hk hln)
    rw [hout hm, hnone]
    rfl

theorem linesRaised_none (h : ∀ ln, ln ∉ s.linesRaised before k) :
    (s.linesRaised before k).getLast?.or (s.passRecord k) = s.passRecord k := by
  rw [List.eq_nil_iff_forall_not_mem.mpr h]
  rfl

theorem linesRaised_last {ln : PlatformLine} (h : ln ∈ s.linesRaised before k)
    (hmax : ∀ m ∈ s.linesRaised before k, lineRank (some m) ≤ lineRank (some ln)) (r : Option PlatformLine) :
    (s.linesRaised before k).getLast?.or r = some ln := by
  obtain ⟨m, hlast, hin, hgreatest⟩ := getLast?_greatest (f := fun ln => lineRank (some ln))
    ((linesRaised_increasing s before k).imp Nat.le_of_lt) h
  rw [hlast, lineRank_injective (Nat.le_antisymm (hmax m hin) (hgreatest ln h))]
  rfl

/-! ### The records of the cabins that have left (R10) -/

theorem setPassRecord_none_self (k : Nat) (s : State) : (setPassRecord k none s).passRecord k = none := by
  cases k with
  | zero => rfl
  | succ k =>
    by_cases h : k < s.ptr.passRecords.length
    · exact nth_setNth_self _ _ _ _ ⟨Nat.succ_pos k, h⟩
    · have hlist : setNth s.ptr.passRecords (k + 1) none = s.ptr.passRecords := List.set_eq_of_length_le (Nat.not_lt.mp h)
      refine (congrArg (fun l => nth l (k + 1) none) hlist).trans ?_
      simp [nth, Nat.not_lt.mp h]

/-- The clearing of the records of some cabins. -/
theorem clearing_passRecord (c : Nat → Prop) [DecidablePred c] (L : List Nat) (k : Nat) (t : State) :
    (L.foldl (fun t j => if c j then setPassRecord j none t else t) t).passRecord k =
      if k ∈ L ∧ c k then none else t.passRecord k := by
  induction L generalizing t with
  | nil => exact (if_neg fun h => List.not_mem_nil h.1).symm
  | cons j L ih =>
    rw [List.foldl_cons, ih]
    by_cases hin : k ∈ L ∧ c k
    · rw [if_pos hin, if_pos ⟨List.mem_cons_of_mem _ hin.1, hin.2⟩]
    · rw [if_neg hin]
      by_cases hj : k = j
      · subst hj
        by_cases hc : c k
        · rw [if_pos hc, if_pos ⟨List.mem_cons_self, hc⟩, setPassRecord_none_self]
        · rw [if_neg hc, if_neg fun h => hc h.2]
      · have hnot : ¬(k ∈ j :: L ∧ c k) := fun h => hin ⟨(List.mem_cons.mp h.1).resolve_left hj, h.2⟩
        rw [if_neg hnot]
        split
        · exact setPassRecord_passRecord_other _ _ hj
        · rfl

theorem clearLeavers_passRecord (s : State) (k : Nat) : (clearLeavers s).passRecord k =
    if k ∈ s.cfs.geometry.cabins ∧ s.cfs.zones.x + s.cfs.zones.o ≤ s.cfs.geometry.position s.ptr.angle k then none
    else s.passRecord k :=
  clearing_passRecord (fun k => s.cfs.zones.x + s.cfs.zones.o ≤ s.cfs.geometry.position s.ptr.angle k) _ k s

theorem clearLeavers_leaves (hk : 1 ≤ k ∧ k ≤ s.cfs.geometry.n)
    (h : s.cfs.zones.x + s.cfs.zones.o ≤ s.cfs.geometry.position s.ptr.angle k) : (clearLeavers s).passRecord k = none := by
  rw [clearLeavers_passRecord, if_pos ⟨mem_cabins.mpr hk, h⟩]

theorem clearLeavers_stays (h : ¬s.cfs.zones.x + s.cfs.zones.o ≤ s.cfs.geometry.position s.ptr.angle k) :
    (clearLeavers s).passRecord k = s.passRecord k := by
  rw [clearLeavers_passRecord, if_neg fun hc => h hc.2]

end Passes

end Sys2Proof.Machine

/-! Proofs: the wheel angle, the encoder checks, the limit points and the pass records of a control update (R3 to R14, R32). -/

namespace Sys2Proof.Machine

section Reading

variable {p : Ptr} {g : Geometry} {sp : Speeds} {m : Count}

/-! ### One update's reading (R3, R4, R6, R13) -/

theorem jumps_iff : p.jumps g sp = true ↔ (jumpLimit g sp : Int) < p.delta := decide_eq_true_iff

theorem mark_jumped (h : (jumpLimit g sp : Int) < p.delta) : p.mark g sp = none := if_pos (jumps_iff.mpr h)

theorem mark_latched (h : ¬(jumpLimit g sp : Int) < p.delta) : p.mark g sp = p.latch := if_neg fun k => h (jumps_iff.mp k)

theorem mark_none (h : p.latch = none ∨ (jumpLimit g sp : Int) < p.delta) : p.mark g sp = none := by
  by_cases hj : (jumpLimit g sp : Int) < p.delta
  · exact mark_jumped hj
  · rw [mark_latched hj]
    exact h.resolve_right hj

theorem newAngle_counted (h : p.mark g sp = none) : p.newAngle g sp = g.wrap (p.angle + p.delta) := by
  simp only [Ptr.newAngle, h]

theorem newAngle_marked (h : p.mark g sp = some m) : p.newAngle g sp = g.wrap (g.iRef + countDiff p.counter m) := by
  simp only [Ptr.newAngle, h]

theorem newReferenced_jumped (h : (jumpLimit g sp : Int) < p.delta) : p.newReferenced g sp = false := if_pos (jumps_iff.mpr h)

theorem newReferenced_calm (h : ¬(jumpLimit g sp : Int) < p.delta) : p.newReferenced g sp = (p.referenced || p.latch.isSome) :=
  if_neg fun k => h (jumps_iff.mp k)

theorem correction_counted (h : p.mark g sp = none) : p.correction g sp = 0 := by simp only [Ptr.correction, h]

theorem correction_marked (h : p.mark g sp = some m) :
    p.correction g sp = signedResidue g.cpr (g.wrap ((g.iRef : Int) - p.markAngle g m)) := by simp only [Ptr.correction, h]

theorem mismatches_counted (h : p.mark g sp = none) : p.mismatches g sp = false := by simp only [Ptr.mismatches, h]

/-- A mark that is off by more than the tolerance (R6). -/
theorem mismatches_marked (h : p.mark g sp = some m) : p.mismatches g sp = true ↔ p.referenced = true ∧
    (g.tIdx : Int) < min (((p.markAngle g m : Int) - g.iRef) % (g.cpr : Int)) (((g.iRef : Int) - p.markAngle g m) % (g.cpr : Int)) := by
  simp only [Ptr.mismatches, h]
  rw [Bool.and_eq_true, decide_eq_true_iff]
  simp only [Geometry.circular, Geometry.wrap, Nat.lt_min, Int.lt_min, Int.lt_toNat]

theorem signedResidue_int (n r : Nat) : signedResidue n r = if 2 * (r : Int) < n then (r : Int) else (r : Int) - n :=
  if_iff_congr (by omega) rfl rfl

end Reading

section Parts

variable {s u : State} {p before : Ptr} {k : Nat}

/-! ### The encoder checks (R6, R13, R14) -/

/-- The state after the reports of a jump and of a reverse motion. -/
def reversed (p : Ptr) (s : State) : State :=
  let jumped := if (jumpLimit s.cfs.geometry s.cfs.speeds : Int) < p.delta then report .encoderJump none s else s
  if p.delta < -8 then report .reverseMotion none jumped else jumped

theorem encoderReports_eq (p : Ptr) (s : State) : encoderReports p s =
    if p.mismatches s.cfs.geometry s.cfs.speeds = true then report .indexMismatch none (reversed p s) else reversed p s := by
  have hjump : (if p.jumps s.cfs.geometry s.cfs.speeds = true then report .encoderJump none s else s) =
      if (jumpLimit s.cfs.geometry s.cfs.speeds : Int) < p.delta then report .encoderJump none s else s :=
    if_iff_congr jumps_iff rfl rfl
  have hreverse (t : State) : (if p.reverses = true then report .reverseMotion none t else t) =
      if p.delta < -8 then report .reverseMotion none t else t := if_iff_congr decide_eq_true_iff rfl rfl
  rw [encoderReports, hjump, hreverse]
  rfl

/-! ### The seeding or the crossings (R5, R9, R10) -/

theorem passUpdate_seeds (hb : before.referenced = false) (hu : u.ptr.referenced = true) :
    passUpdate before u = clearLeavers (seedAll u) := congrArg clearLeavers (if_pos ⟨hb, hu⟩)

theorem passUpdate_raises (hd : u.cfs.device = .service) (hb : before.referenced = true) (hu : u.ptr.referenced = true)
    (ha : 0 < before.advance u.cfs.geometry u.cfs.speeds) :
    passUpdate before u = clearLeavers (raiseCrossings before.angle u) := by
  refine congrArg clearLeavers ((if_neg fun h => ?_).trans (if_pos ⟨hd, hb, hu, ha⟩))
  exact Bool.noConfusion (h.1.symm.trans hb)

theorem passUpdate_idle (hs : ¬(before.referenced = false ∧ u.ptr.referenced = true))
    (hr : ¬(u.cfs.device = .service ∧ before.referenced = true ∧ u.ptr.referenced = true ∧
      0 < before.advance u.cfs.geometry u.cfs.speeds)) : passUpdate before u = clearLeavers u :=
  congrArg clearLeavers ((if_neg hs).trans (if_neg hr))

/-- The records after a seeding (R10). -/
theorem seeded_passRecord (hk : 1 ≤ k ∧ k ≤ u.cfs.geometry.n) :
    let z := u.cfs.zones
    let x := u.cfs.geometry.position u.ptr.angle k
    (x < z.a ∨ z.x + z.o ≤ x → (clearLeavers (seedAll u)).passRecord k = none) ∧
    (z.a ≤ x → x < z.x + z.o → ∃ ln, (clearLeavers (seedAll u)).passRecord k = some ln ∧ z.line ln ≤ x ∧
      ∀ m, z.line m ≤ x → lineRank (some m) ≤ lineRank (some ln)) := by
  intro z x
  have hcfs : (seedAll u).cfs = u.cfs := (seedAll_event u).cfs
  have hangle : (seedAll u).ptr.angle = u.ptr.angle := (congrArg Ptr.angle (seedAll_event u).ptr).trans rfl
  have hrecord : (seedAll u).passRecord k = z.seed x := (passRecord_of_ptr (seedAll_event u).ptr k).trans (seedRecords_record hk)
  have hclear := clearLeavers_passRecord (seedAll u) k
  rw [hcfs, hangle, hrecord] at hclear
  refine ⟨fun h => ?_, fun ha hx => ?_⟩
  · rw [hclear, seed_outside h, ite_self]
  · rw [hclear, if_neg fun h => Int.not_lt.mpr h.2 hx]
    exact seed_inside ha hx

/-- The records after the crossings (R10). -/
theorem crossed_passRecord (hk : 1 ≤ k ∧ k ≤ u.cfs.geometry.n) (hl : k ≤ u.ptr.passRecords.length) (b : Nat) :
    let z := u.cfs.zones
    let x := u.cfs.geometry.position u.ptr.angle k
    let r := (clearLeavers (raiseCrossings b u)).passRecord k
    (z.x + z.o ≤ x → r = none) ∧
    (x < z.x + z.o → (∀ ln, ln ∉ u.linesRaised b k) → r = u.passRecord k) ∧
    (x < z.x + z.o → ∀ ln, ln ∈ u.linesRaised b k →
      (∀ m, m ∈ u.linesRaised b k → lineRank (some m) ≤ lineRank (some ln)) → r = some ln) := by
  intro z x r
  have htracked := raiseCrossings_tracked b u
  have hcfs : (raiseCrossings b u).cfs = u.cfs := congrArg (fun y => y.2.2.2.1) htracked
  have hangle : (raiseCrossings b u).ptr.angle = u.ptr.angle := congrArg (fun y => y.1.angle) htracked
  have hclear : r = _ := clearLeavers_passRecord (raiseCrossings b u) k
  rw [hcfs, hangle, raiseCrossings_passRecord hk hl] at hclear
  refine ⟨fun h => ?_, fun h hnone => ?_, fun h ln hln hmax => ?_⟩
  · rw [hclear, if_pos ⟨mem_cabins.mpr hk, h⟩]
  · rw [hclear, if_neg fun hc => Int.not_lt.mpr hc.2 h, linesRaised_none hnone]
  · rw [hclear, if_neg fun hc => Int.not_lt.mpr hc.2 h, linesRaised_last hln hmax]

/-- The crossings, in whatever way their ordered list is given (R9). -/
theorem raiseCrossings_unique {b : Nat} {raised : List (Nat × PlatformLine)}
    (hmem : ∀ k ln, (k, ln) ∈ raised ↔ (1 ≤ k ∧ k ≤ u.cfs.geometry.n) ∧ ln ∈ u.linesRaised b k)
    (hsorted : raised.Pairwise (crossedBefore (u.cfs.geometry.position u.ptr.angle))) :
    raiseCrossings b u = raised.foldl (fun u c => raise c u) u := by
  rw [raiseCrossings_eq, raiseCabins_eq (movedCabins_nodup u b) ⟨rfl, rfl, rfl, fun _ _ => rfl⟩, pairsRaised_unique hmem hsorted]

/-! ### The whole update's records -/

theorem updateWheel_ptr (s : State) :
    (updateWheel s).ptr = (passUpdate s.ptr (encoderReports s.ptr (settleUpdate s))).ptr := (overrunCheck_event _).ptr

theorem ptr_of_sensed {t : State} (h : t.sensed = s.sensed) : t.ptr = s.ptr := congrArg Prod.fst h

theorem blocks_of_tracked {t : State} (h : t.tracked = s.tracked) :
    t.cfs = s.cfs ∧ t.wmn = s.wmn ∧ t.pim = s.pim ∧ t.time = s.time := by
  obtain ⟨-, hwmn, hpim, hcfs, htime⟩ := by simpa only [State.tracked, Prod.mk.injEq] using h
  exact ⟨hcfs, hwmn, hpim, htime⟩

theorem controlUpdate_passRecord (s : State) (k : Nat) :
    (controlUpdate s).passRecord k = (passUpdate s.ptr (encoderReports s.ptr (settleUpdate s))).passRecord k := by
  rw [passRecord_of_ptr (ptr_of_sensed (controlUpdate_sensed s)), passRecord_of_ptr (updateWheel_ptr s)]

end Parts

/-- Settles O11, part by part in the order of the update. -/
theorem controlUpdateMovesWheelAngle : Obligations.ControlUpdateMovesWheelAngle := by
  unfold Obligations.ControlUpdateMovesWheelAngle
  intro s hrun g z d j cpr correction off settled reported
  have hread {α : Type} (f : Ptr → α) (hf : ∀ p : Ptr, f { p with passRecords := [] } = f p) := controlUpdate_ptr f hf s
  obtain ⟨hcfst, hwmnt, hpimt, htimet⟩ := blocks_of_tracked (controlUpdate_tracked s)
  have hangle : (controlUpdate s).ptr.angle = s.ptr.newAngle g s.cfs.speeds := hread Ptr.angle fun _ => rfl
  have hreferenced : (controlUpdate s).ptr.referenced = s.ptr.newReferenced g s.cfs.speeds := hread Ptr.referenced fun _ => rfl
  have hptr : reported.ptr = s.ptr.settled g s.cfs.speeds := (encoderReports_event s.ptr settled).ptr
  have hcfs : reported.cfs = s.cfs := (encoderReports_event s.ptr settled).cfs
  have hwheel : updateWheel s = overrunCheck (passUpdate s.ptr reported) := rfl
  have hrecord (k : Nat) : (controlUpdate s).passRecord k = (passUpdate s.ptr reported).passRecord k := controlUpdate_passRecord s k
  have hadvance : s.ptr.advance reported.cfs.geometry reported.cfs.speeds = d + s.ptr.correction g s.cfs.speeds := by
    rw [hcfs]
    rfl
  have hafter : reported.ptr.referenced = (controlUpdate s).ptr.referenced := by rw [hptr, hreferenced]; rfl
  have hturned : reported.ptr.angle = (controlUpdate s).ptr.angle := by rw [hptr, hangle]; rfl
  have hcorrection (hj : ¬j < d) : s.ptr.correction g s.cfs.speeds = correction := by
    have hmark : s.ptr.mark g s.cfs.speeds = s.ptr.latch := mark_latched hj
    cases hl : s.ptr.latch with
    | none =>
      have hnone : correction = 0 := by simp only [correction, hl]
      rw [correction_counted (hmark.trans hl), hnone]
    | some m =>
      rw [correction_marked (hmark.trans hl)]
      simp only [correction, hl]
      rfl
  have hkept (k : Nat) : reported.passRecord k = s.passRecord k := by
    rw [State.passRecord, hptr]
    rfl
  have hcounter : (controlUpdate s).ptr.counter = s.ptr.counter := hread Ptr.counter fun _ => rfl
  have hsample : (controlUpdate s).ptr.sample = s.ptr.counter := hread Ptr.sample fun _ => rfl
  have hlatch : (controlUpdate s).ptr.latch = none := hread Ptr.latch fun _ => rfl
  refine ⟨controlUpdate s, exec_controlUpdate hrun, hcounter, hsample, hlatch, hcfst, hwmnt, hpimt, htimet,
    fun h => ?counted, fun m hm hj => ?marked, fun hj => ?jumped, fun hj => ?calm,
    fun hb ha k h1 hn => ?seeded, fun hb hl hd k => ?still, fun hd hb hj hfar => ?raised, fun hb ha => ?seeds,
    fun hsame h => ?idle, fun hj hb => ?lost, ?reports, ?limits⟩
  case counted => rw [hangle]; exact newAngle_counted (mark_none h)
  case marked => rw [hangle, newAngle_marked ((mark_latched hj).trans hm)]; rfl
  case jumped => rw [hreferenced]; exact newReferenced_jumped hj
  case calm => rw [hreferenced]; exact newReferenced_calm hj
  case seeded =>
    intro x
    have hseeded := seeded_passRecord (u := reported) (k := k) (by rw [hcfs]; exact ⟨h1, hn⟩)
    rw [hrecord, passUpdate_seeds hb (hafter.trans ha)]
    rw [hturned, hcfs] at hseeded
    exact hseeded
  case still =>
    have hsmall : s.ptr.correction g s.cfs.speeds = 0 := correction_counted (mark_none (.inl hl))
    rw [hrecord, passUpdate_idle (fun h => Bool.noConfusion (h.1.symm.trans hb)) fun h => ?far, clearLeavers_passRecord]
    case far =>
      have hfar := h.2.2.2
      rw [hadvance, hsmall, Int.add_zero] at hfar
      exact Int.not_lt.mpr hd hfar
    split
    · exact .inr rfl
    · exact .inl (hkept k)
  case raised =>
    intro passes
    have href : reported.ptr.referenced = true := by
      rw [hafter, hreferenced, newReferenced_calm hj, hb, Bool.true_or]
    have hpass := passUpdate_raises (u := reported) (by rw [hcfs]; exact hd) hb href
      (by rw [hadvance, hcorrection hj]; exact hfar)
    have hpasses (k : Nat) (ln : PlatformLine) : ln ∈ reported.linesRaised s.ptr.angle k ↔ passes k ln := by
      rw [mem_linesRaised, hcfs, hturned, hkept]
    refine ⟨fun k h1 hn hl => ?_, fun raised hmem hsorted => ?_⟩
    · intro x
      have hcrossed := crossed_passRecord (u := reported) (k := k) (by rw [hcfs]; exact ⟨h1, hn⟩)
        (by rw [hptr]; exact hl) s.ptr.angle
      rw [hturned, hcfs, hkept] at hcrossed
      simp only [hpasses] at hcrossed
      rw [hrecord, hpass]
      exact hcrossed
    · have hunique := raiseCrossings_unique (u := reported) (b := s.ptr.angle) (raised := raised)
        (fun k ln => by rw [hcfs, hpasses, and_assoc]; exact hmem k ln) (by rw [hcfs, hturned]; exact hsorted)
      rw [hwheel, hpass, hunique]
      rfl
  case seeds => rw [hwheel, passUpdate_seeds hb (hafter.trans ha)]
  case idle =>
    rw [hwheel, passUpdate_idle (fun hs => ?seeding) fun hr => ?raising]
    case seeding =>
      rw [hafter, ← hsame] at hs
      exact Bool.noConfusion (hs.1.symm.trans hs.2)
    case raising =>
      obtain ⟨hd, hb, -, hfar⟩ := hr
      have hj : ¬j < d := fun hj => by
        rw [hreferenced, newReferenced_jumped hj] at hsame
        exact Bool.noConfusion (hb.symm.trans hsame)
      rw [hcfs] at hd
      rw [hadvance, hcorrection hj] at hfar
      rcases h with h | h | h
      · exact Device.noConfusion (h.symm.trans hd)
      · exact Bool.noConfusion (h.symm.trans hb)
      · exact Int.not_lt.mpr h hfar
  case lost =>
    have href : reported.ptr.referenced = false := by rw [hafter, hreferenced, newReferenced_jumped hj]
    rw [hwheel, passUpdate_idle (fun hs => ?seeding) fun hr => ?raising]
    case seeding => exact Bool.noConfusion (href.symm.trans hs.2)
    case raising => exact Bool.noConfusion (href.symm.trans hr.2.2.1)
  case reports =>
    intro jumped reversed
    have hreported : reported = if s.ptr.mismatches g s.cfs.speeds = true then report .indexMismatch none reversed else reversed :=
      encoderReports_eq s.ptr settled
    have hoff (hj : ¬j < d) : s.ptr.mismatches g s.cfs.speeds = true ↔ s.ptr.referenced = true ∧ off := by
      have hmark : s.ptr.mark g s.cfs.speeds = s.ptr.latch := mark_latched hj
      cases hl : s.ptr.latch with
      | none =>
        rw [mismatches_counted (hmark.trans hl)]
        refine ⟨nofun, fun ⟨_, m, hm, _⟩ => absurd (hl.symm.trans hm) nofun⟩
      | some m =>
        rw [mismatches_marked (hmark.trans hl)]
        refine and_congr_right fun _ => ⟨fun h => ⟨m, hl, h⟩, fun ⟨n, hn, h⟩ => ?_⟩
        obtain rfl : m = n := Option.some.inj (hl.symm.trans hn)
        exact h
    refine ⟨fun hb hj ho => hreported.trans (if_pos ((hoff hj).mpr ⟨hb, ho⟩)), fun h => hreported.trans (if_neg fun hm => ?_)⟩
    by_cases hj : j < d
    · rw [mismatches_counted (mark_jumped hj)] at hm
      exact Bool.noConfusion hm
    · obtain ⟨hb, ho⟩ := (hoff hj).mp hm
      rcases h with h | h | h
      · exact Bool.noConfusion (h.symm.trans hb)
      · exact hj h
      · exact h ho
  case limits =>
    intro signed seeded
    refine List.map_congr_left fun e _ => ?_
    have hsigned (x : Int) : signedResidue g.cpr (g.wrap x) = signed x := signedResidue_int g.cpr (g.wrap x)
    have hremaining : newRemaining g s.ptr (s.ptr.settled g s.cfs.speeds) e =
        if seeded then signed ((e.line : Int) - (controlUpdate s).ptr.angle)
        else e.remaining - signed (((controlUpdate s).ptr.angle : Int) - s.ptr.angle) := by
      rw [hangle, ← hsigned, ← hsigned]
      exact if_iff_congr (and_congr_right fun _ => by rw [hreferenced]; rfl) rfl rfl
    exact congrArg (fun r => { e with remaining := r }) hremaining

end Sys2Proof.Machine
